-- ==== Sys2Proof/Word.lean ====
section
/-! DEFINITION. The 32-bit word every DP, AP and command register holds, and the access widths of target memory
(spec/00_scope.md R6, R8; spec/20_memory.md R48). -/

namespace Sys2Proof

/-- `u32`: a DP/AP register, a data packet, a target address, a word of the command port (R6, R8). -/
abbrev Word := BitVec 32

/-- An access width of target memory, in {8, 16, 32} bits (R13, R48). -/
inductive Width
  | w8
  | w16
  | w32
deriving DecidableEq, Repr, Inhabited

end Sys2Proof
end

