-- ==== Sys2Proof/Config.lean ====
section
/-! DEFINITION. The implementation parameters of spec/00_scope.md R6, and the free values.
Every row of R6 that has a value is a field of `Params`, held in `State.par` (log entry 2). -/

namespace Sys2Proof

/-- The parameters of R6. -/
structure Params where
  /-- `WAIT_RETRY_BOUND`: the greatest number of request frames sent for one transaction (R118, R121). -/
  waitRetryBound : Nat
  /-- `POWERUP_POLL_BOUND`: the greatest number of CTRLSTAT poll reads; `none` is the unbounded reference (R187). -/
  powerupPollBound : Option Nat
  /-- `MEMAP_INDEX`: the AP the memory engine uses (R28). -/
  memapIndex : BitVec 8
  /-- `CSW_FIXED`: the bits of CSW outside SIZE and the increment field (R29, R173). -/
  cswFixed : Word
  /-- `ACK_ERR_TRN`: turnaround bits sampled after a FAULT, last WAIT or undecodable ack (R117, R119, R120). -/
  ackErrTrn : Fin 2
  /-- `POST_WRITE_IDLE`: idle bits driven after the parity bit of a write (R77, R122). -/
  postWriteIdle : Nat
  /-- `N_LINE_RESET`: the '1' bits of a line reset (R80; U6: "so that a model can state its proofs for any value"). -/
  nLineReset : Nat
  /-- `N_IDLE_AFTER_SWITCH`: the idle bits that end `switchProtocol` (R82; U6). -/
  nIdleAfterSwitch : Nat
  /-- `SWITCH_SEQ`: the JTAG-to-SWD sequence, sent bit 0 first (R81; the spec's D12). -/
  switchSeq : BitVec 16
  /-- `ACK_OK` (R75; the spec's D6: "they are parameters so a claim can quantify over them"). -/
  ackOk : BitVec 3
  /-- `ACK_WAIT` (R75). -/
  ackWait : BitVec 3
  /-- `ACK_FAULT` (R75). -/
  ackFault : BitVec 3
deriving DecidableEq, Repr

namespace Config

/-- The parameters with the values R6 fixes or decides. `powerupPollBound` is open in R6 ("no default the spec vouches
for"): `none`, the reference behaviour, is a DESIGN CHOICE of the model (log entry 2). -/
def defaultParams : Params where
  waitRetryBound := 3
  powerupPollBound := none
  memapIndex := 0#8
  cswFixed := 0#32
  ackErrTrn := 0
  postWriteIdle := 0
  nLineReset := 56
  nIdleAfterSwitch := 8
  switchSeq := 0xE79E#16
  ackOk := 0b001#3
  ackWait := 0b010#3
  ackFault := 0b100#3

/-- The bits the environment supplies once the listed answers (`State.wireIn`) are used up: each sampled bit is "a free
input" (R7), so nothing is known of them (log entry 3). -/
opaque freeSample : Nat → Bool

/-- The session default width in a state that is Ready and holds none; no run reaches such a state (R172, R205), and the
spec gives it no width (log entry 8). -/
opaque freeWidth : Nat → Width

end Config

/-- The three acknowledgement codes differ from each other: "one of {OK, WAIT, FAULT}" (R75), beside the five other
patterns (R76; log entry 2). -/
abbrev Params.distinctAcks (p : Params) : Prop :=
  p.ackOk ≠ p.ackWait ∧ p.ackOk ≠ p.ackFault ∧ p.ackWait ≠ p.ackFault

/-- The type column of R6: a bound counts at least one, `CSW_FIXED` leaves the SIZE and increment fields zero, and the
acknowledgement codes can be told apart. -/
abbrev Params.wf (p : Params) : Prop :=
  1 ≤ p.waitRetryBound ∧ p.powerupPollBound ≠ some 0 ∧ p.cswFixed &&& 0x37#32 = 0#32 ∧ p.distinctAcks

end Sys2Proof
end

