-- ==== Sys2Proof/Machine/Bits.lean ====
section
/-! DEFINITION. Bit sequences in time order: the notation of spec/00_scope.md R8 (`lsbf_n`, `val`, `ones`, `zeros`) and
the bit reversal of spec/40_swd_transport.md R112. -/

namespace Sys2Proof.Machine

/-- `lsbf_n(v)`: the bits of `v`, bit 0 first (R8, R44). -/
def lsbf {n : Nat} (v : BitVec n) : List Bool := (List.range n).map fun i => v.getLsbD i

/-- `msbf_n(v)`: the bits of `v` as printed, most significant first (R112). -/
def msbf {n : Nat} (v : BitVec n) : List Bool := (List.range n).map fun i => v.getMsbD i

/-- `val(s)` as an `n`-bit value: bit `i` is the `i`-th element of `s`, counting from 0 (R8). -/
def val (n : Nat) (s : List Bool) : BitVec n := (BitVec.ofBoolListLE s).setWidth n

/-- `bitrev_n(s)` (R112). -/
def bitrev (s : List Bool) : List Bool := s.reverse

/-- `ones(n)` (R8). -/
def ones (n : Nat) : List Bool := List.replicate n true

/-- `zeros(n)` (R8). -/
def zeros (n : Nat) : List Bool := List.replicate n false

/-- The exclusive or of a sequence of bits. -/
def xorFold (s : List Bool) : Bool := s.foldr xor false

end Sys2Proof.Machine
end

