-- ==== Sys2Proof/Machine/Flags.lean ====
section
/-! DEFINITION. The block has no condition codes (spec/10_state.md R21). Its only flag-like computations are the two
parity bits (spec/40_swd_transport.md R110, R111) and the wire layouts that carry them (spec/30_encoding.md R72, R75,
R77, R78, R80 to R82). -/

namespace Sys2Proof.Machine

/-- `parity32(v)`: the exclusive or of all 32 bits (R79, R110). -/
def parity32 (v : Word) : Bool := xorFold (lsbf v)

/-- `parity4(a, r, x, y)` (R74, R111). -/
def parity4 (a r x y : Bool) : Bool := a ^^ r ^^ x ^^ y

/-- `reqFrame(a, r, A32)`: start, APnDP, RnW, A[2], A[3], parity, stop, park (R72, R113). -/
def reqFrame (a r : Bool) (a32 : BitVec 2) : List Bool :=
  let x := a32.getLsbD 0
  let y := a32.getLsbD 1
  [true, a, r, x, y, parity4 a r x y, false, true]

/-- The driven data phase of a write: turnaround 0, the 32 bits, the parity (R77). -/
def wdataBits (v : Word) : List Bool := false :: (lsbf v ++ [parity32 v])

/-- A line reset (R80). -/
def lineResetBits (par : Params) : List Bool := ones par.nLineReset

/-- The JTAG-to-SWD sequence (R81). -/
def jtagToSwdBits (par : Params) : List Bool := lsbf par.switchSeq

/-- The idle bits that end `switchProtocol` (R82). -/
def idle8Bits (par : Params) : List Bool := zeros par.nIdleAfterSwitch

/-- A request's word: start, APnDP, RnW, A[2], A[3], parity, stop, park from bit 0 up (R71, R72). -/
def requestWord (a r : Bool) (a32 : BitVec 2) : BitVec 8 :=
  1#1 ++ 0#1 ++ BitVec.ofBool (parity4 a r (a32.getLsbD 0) (a32.getLsbD 1)) ++ a32 ++ BitVec.ofBool r ++
    BitVec.ofBool a ++ 1#1

/-- A write packet's word: turnaround 0, data, parity from bit 0 up (R71, R77). -/
def wdataWord (v : Word) : BitVec 34 := BitVec.ofBool (parity32 v) ++ v ++ 0#1

/-- A read packet's word: data, parity, turnaround from bit 0 up (R71, R78). -/
def rdataWord (v : Word) (parity turnaround : Bool) : BitVec 34 :=
  BitVec.ofBool turnaround ++ BitVec.ofBool parity ++ v

end Sys2Proof.Machine
end

