-- ==== Sys2Proof/Syntax.lean ====
section
/-! DEFINITION. The operations of the block: one constructor per row of spec/opcode_table.json. An "instruction" here is
an operation (spec/00_scope.md R8): a host command, a request frame or the generic `sendRequest`, an acknowledgement, a
data packet, or a fixed line sequence. -/

namespace Sys2Proof

/-- The WIDTH field of a memory command (spec/30_encoding.md R98). -/
inductive WidthCode
  | w8
  | w16
  | w32
  /-- Code 3: the session default `S.width`. -/
  | session
deriving DecidableEq, Repr

/-- One constructor per row of the opcode table. -/
inductive Instr
  /-- Host command OP 0x0 (R97, R203). -/
  | connect
  /-- Host command OP 0x1 (R97, R208). -/
  | disconnect
  /-- Host command OP 0x2 (R97, R210). -/
  | reset
  /-- Host command OP 0x3 (R97, R212). -/
  | invalidate
  /-- Host command OP 0x4 (R97, R176). -/
  | readmem (width : WidthCode) (addr : Word)
  /-- Host command OP 0x5 (R97, R174). -/
  | writemem (width : WidthCode) (addr value : Word)
  /-- Host command OP 0x6 with KIND = DP (R97, R152). -/
  | readportDp (regAddr : BitVec 8)
  /-- Host command OP 0x6 with KIND = AP (R97, R152). -/
  | readportAp (apIndex regAddr : BitVec 8)
  /-- Host command OP 0x7 with KIND = DP (R97, R153). -/
  | writeportDp (regAddr : BitVec 8) (value : Word)
  /-- Host command OP 0x7 with KIND = AP (R97, R153). -/
  | writeportAp (apIndex regAddr : BitVec 8) (value : Word)
  /-- Request frame 0x81: DP write offset 0x0, ABORT (R73). -/
  | reqDpW0
  /-- Request frame 0xA9: DP write offset 0x4, CTRLSTAT (R73). -/
  | reqDpW4
  /-- Request frame 0xB1: DP write offset 0x8, SELECT (R73). -/
  | reqDpW8
  /-- Request frame 0x99: DP write offset 0xC (R73). -/
  | reqDpWC
  /-- Request frame 0xA5: DP read offset 0x0, IDCODE (R73). -/
  | reqDpR0
  /-- Request frame 0x8D: DP read offset 0x4, CTRLSTAT (R73). -/
  | reqDpR4
  /-- Request frame 0x95: DP read offset 0x8 (R73). -/
  | reqDpR8
  /-- Request frame 0xBD: DP read offset 0xC (R73). -/
  | reqDpRC
  /-- Request frame 0xA3: AP write register 0 of the bank, CSW (R73). -/
  | reqApW0
  /-- Request frame 0x8B: AP write register 1 of the bank, TAR (R73). -/
  | reqApW4
  /-- Request frame 0x93: AP write register 2 of the bank (R73). -/
  | reqApW8
  /-- Request frame 0xBB: AP write register 3 of the bank, DRW (R73). -/
  | reqApWC
  /-- Request frame 0x87: AP read register 0 of the bank, CSW (R73). -/
  | reqApR0
  /-- Request frame 0xAF: AP read register 1 of the bank, TAR (R73). -/
  | reqApR4
  /-- Request frame 0xB7: AP read register 2 of the bank (R73). -/
  | reqApR8
  /-- Request frame 0x9F: AP read register 3 of the bank, DRW (R73). -/
  | reqApRC
  /-- The generic request row: the call of `sendRequest(a, r, A32)`, whose sixteen frames are the rows above (R113, R115;
  log entry 7). -/
  | req (apndp rnw : Bool) (a32 : BitVec 2)
  /-- Acknowledgement `ACK_OK`, 0b001 unless the parameters say otherwise (R6, R75, R116). -/
  | ackOk
  /-- Acknowledgement `ACK_WAIT`, 0b010 likewise (R75, R118, R119). -/
  | ackWait
  /-- Acknowledgement `ACK_FAULT`, 0b100 likewise (R75, R117). -/
  | ackFault
  /-- Undecodable acknowledgement 0b000: the first pattern that is none of the three codes (R76, R120; log entry 7). -/
  | ackUndecodable000
  /-- Undecodable acknowledgement 0b011 (R76, R120). -/
  | ackUndecodable011
  /-- Undecodable acknowledgement 0b101 (R76, R120). -/
  | ackUndecodable101
  /-- Undecodable acknowledgement 0b110 (R76, R120). -/
  | ackUndecodable110
  /-- Undecodable acknowledgement 0b111 (R76, R120). -/
  | ackUndecodable111
  /-- The data packet of a write: turnaround, 32 data bits, parity (R77, R122). -/
  | wdata (value : Word)
  /-- The data packet of a read as sampled: 32 data bits, the received parity bit, the turnaround bit (R78, R123). -/
  | rdata (value : Word) (parity turnaround : Bool)
  /-- 56 one bits (R80, R125). -/
  | lineReset
  /-- The 16-bit JTAG-to-SWD sequence (R81, R126). -/
  | jtagToSwd
  /-- Eight idle bits (R82, R126). -/
  | idle8
deriving DecidableEq, Repr

end Sys2Proof
end

