-- ==== Sys2Proof/WellFormed.lean ====
section
/-! DEFINITION. Which operations have an encoding: the operand checks of spec/30_encoding.md R99 (c) and (d). Every other
operand admits every value of its type. -/

namespace Sys2Proof

/-- A port command names an aligned register (R99 (c)). -/
abbrev alignedReg (regAddr : BitVec 8) : Prop := regAddr.extractLsb' 0 2 = 0#2

/-- A DP port command names an offset in 0x0 to 0xC (R99 (d)). -/
abbrev dpOffset (regAddr : BitVec 8) : Prop := regAddr.extractLsb' 4 4 = 0#4

/-- The operand checks of R99, per operation. -/
def wellFormedBool : Instr → Bool
  | .readportDp r => decide (alignedReg r ∧ dpOffset r)
  | .writeportDp r _ => decide (alignedReg r ∧ dpOffset r)
  | .readportAp _ r => decide (alignedReg r)
  | .writeportAp _ r _ => decide (alignedReg r)
  | .connect | .disconnect | .reset | .invalidate => true
  | .readmem _ _ | .writemem _ _ _ => true
  | .reqDpW0 | .reqDpW4 | .reqDpW8 | .reqDpWC => true
  | .reqDpR0 | .reqDpR4 | .reqDpR8 | .reqDpRC => true
  | .reqApW0 | .reqApW4 | .reqApW8 | .reqApWC => true
  | .reqApR0 | .reqApR4 | .reqApR8 | .reqApRC => true
  | .req _ _ _ => true
  | .ackOk | .ackWait | .ackFault => true
  | .ackUndecodable000 | .ackUndecodable011 | .ackUndecodable101 | .ackUndecodable110 | .ackUndecodable111 => true
  | .wdata _ | .rdata _ _ _ => true
  | .lineReset | .jtagToSwd | .idle8 => true

/-- The operation has an encoding. -/
abbrev WellFormed (i : Instr) : Prop := wellFormedBool i = true

end Sys2Proof
end

