-- ==== Sys2Proof/Decode.lean ====
section
/-! DEFINITION. From words to operations and back (spec/30_encoding.md). A `Frame` is the words of one operation in one
of the formats of R70; `decode` reads the operation from it or rejects it by name; `encode` writes the words of a
well-formed operation from the same tables. The acknowledgement codes and the fixed sequences are those of the
parameters `par` (R6, R75, R80 to R82). A wire word's bit `t` is the bit at wire position `t` (R71). -/

namespace Sys2Proof
open Sys2Proof.Machine

/-- The words of one operation, by format (R70). -/
inductive Frame
  /-- CMD: command word, address word, write-data word (R95, R96). -/
  | cmd (command addr wdata : Word)
  /-- The operands of `sendRequest`, in the layout of the request they stand for (the table's generic REQ row). -/
  | sendRequest (w : BitVec 8)
  /-- REQ: a request frame (R72). -/
  | req (w : BitVec 8)
  /-- ACK: the three code bits after the turnaround (R75). -/
  | ack (w : BitVec 3)
  /-- WDATA (R77). -/
  | wdata (w : BitVec 34)
  /-- RDATA (R78). -/
  | rdata (w : BitVec 34)
  /-- SEQ: line reset (R80), in time order; its length is a parameter (R6). -/
  | lineReset (w : List Bool)
  /-- SEQ: JTAG-to-SWD sequence (R81), in time order. -/
  | jtagToSwd (w : List Bool)
  /-- SEQ: idle (R82), in time order; its length is a parameter (R6). -/
  | idle8 (w : List Bool)
deriving DecidableEq, Repr

/-- Why words are no operation. -/
inductive DecodeError
  /-- `CMD[7]` or `CMD[31:24]` is not zero (R99 (a)). -/
  | reservedBits
  /-- OP is 0x8 to 0xF (R99 (b)). -/
  | reservedOp
  /-- A port command's `REGADDR[1:0]` is not zero (R99 (c)). -/
  | unalignedReg
  /-- A DP port command's `REGADDR[7:4]` is not zero (R99 (d)). -/
  | noSuchDpOffset
  /-- A request whose start, stop or park bit is wrong (R72). -/
  | badFraming
  /-- A request or write packet whose parity bit is wrong (R74, R79). -/
  | badParity
  /-- A write packet whose turnaround bit is not 0 (R77). -/
  | badTurnaround
  /-- A fixed sequence with other bits than its own (R80 to R82). -/
  | badSequence
deriving DecidableEq, Repr

/-- R98. -/
def decodeWidthCode (code : BitVec 2) : WidthCode :=
  match code.getLsbD 1, code.getLsbD 0 with
  | false, false => .w8
  | false, true => .w16
  | true, false => .w32
  | true, true => .session

/-- R98. -/
def encodeWidthCode : WidthCode → BitVec 2
  | .w8 => 0#2
  | .w16 => 1#2
  | .w32 => 2#2
  | .session => 3#2

/-- A port command's KIND and register checks (R99 (c), (d)), then the operation of its kind. -/
def decodePort (kind : Bool) (regAddr : BitVec 8) (dp ap : Instr) : Except DecodeError Instr :=
  if ¬ alignedReg regAddr then .error .unalignedReg
  else if kind then .ok ap
  else if ¬ dpOffset regAddr then .error .noSuchDpOffset
  else .ok dp

/-- The command word (R96, R97) with the legality check of R99. -/
def decodeCmd (c addr wdata : Word) : Except DecodeError Instr :=
  let width := decodeWidthCode (c.extractLsb' 4 2)
  let kind := c.getLsbD 6
  let regAddr := c.extractLsb' 8 8
  let apIndex := c.extractLsb' 16 8
  if c.getLsbD 7 ∨ c.extractLsb' 24 8 ≠ 0#8 then .error .reservedBits
  else match (c.extractLsb' 0 4).toNat with
    | 0 => .ok .connect
    | 1 => .ok .disconnect
    | 2 => .ok .reset
    | 3 => .ok .invalidate
    | 4 => .ok (.readmem width addr)
    | 5 => .ok (.writemem width addr wdata)
    | 6 => decodePort kind regAddr (.readportDp regAddr) (.readportAp apIndex regAddr)
    | 7 => decodePort kind regAddr (.writeportDp regAddr wdata) (.writeportAp apIndex regAddr wdata)
    | _ => .error .reservedOp

/-- The request row of each (APnDP, RnW, A[3], A[2]): the table of R73. -/
def requestRow (a r : Bool) (a32 : BitVec 2) : Instr :=
  match a, r, a32.getLsbD 1, a32.getLsbD 0 with
  | false, false, false, false => .reqDpW0
  | false, false, false, true => .reqDpW4
  | false, false, true, false => .reqDpW8
  | false, false, true, true => .reqDpWC
  | false, true, false, false => .reqDpR0
  | false, true, false, true => .reqDpR4
  | false, true, true, false => .reqDpR8
  | false, true, true, true => .reqDpRC
  | true, false, false, false => .reqApW0
  | true, false, false, true => .reqApW4
  | true, false, true, false => .reqApW8
  | true, false, true, true => .reqApWC
  | true, true, false, false => .reqApR0
  | true, true, false, true => .reqApR4
  | true, true, true, false => .reqApR8
  | true, true, true, true => .reqApRC

/-- The start, stop, park and parity checks of a request word (R72, R74), then what its operand bits stand for. -/
def decodeRequest (w : BitVec 8) (row : Bool → Bool → BitVec 2 → Instr) : Except DecodeError Instr :=
  let a := w.getLsbD 1
  let r := w.getLsbD 2
  let x := w.getLsbD 3
  let y := w.getLsbD 4
  if ¬ (w.getLsbD 0 = true ∧ w.getLsbD 6 = false ∧ w.getLsbD 7 = true) then .error .badFraming
  else if w.getLsbD 5 ≠ parity4 a r x y then .error .badParity
  else .ok (row a r (w.extractLsb' 3 2))

/-- The patterns that are none of the three codes, in rising order (R76): with the codes of R75 these are 0b000, 0b011,
0b101, 0b110 and 0b111, which name the five undecodable rows (log entry 7). -/
def undecodableCodes (par : Params) : List (BitVec 3) :=
  [0b000#3, 0b001#3, 0b010#3, 0b011#3, 0b100#3, 0b101#3, 0b110#3, 0b111#3].filter fun c =>
    c ≠ par.ackOk ∧ c ≠ par.ackWait ∧ c ≠ par.ackFault

/-- The eight acknowledgement rows (R75, R76). -/
def decodeAckCode (par : Params) (w : BitVec 3) : Instr :=
  if w = par.ackOk then .ackOk
  else if w = par.ackWait then .ackWait
  else if w = par.ackFault then .ackFault
  else match (undecodableCodes par).idxOf w with
    | 0 => .ackUndecodable000
    | 1 => .ackUndecodable011
    | 2 => .ackUndecodable101
    | 3 => .ackUndecodable110
    | _ => .ackUndecodable111

/-- A write packet (R77, R79). -/
def decodeWdata (w : BitVec 34) : Except DecodeError Instr :=
  let v : Word := w.extractLsb' 1 32
  if w.getLsbD 0 then .error .badTurnaround
  else if w.getLsbD 33 ≠ parity32 v then .error .badParity
  else .ok (.wdata v)

/-- A read packet as sampled: every 34 bits are one (R78). -/
def decodeRdata (w : BitVec 34) : Instr :=
  .rdata (w.extractLsb' 0 32) (w.getLsbD 32) (w.getLsbD 33)

/-- The operation a frame's words stand for, or why they stand for none. -/
def decode (par : Params) : Frame → Except DecodeError Instr
  | .cmd c addr wdata => decodeCmd c addr wdata
  | .sendRequest w => decodeRequest w .req
  | .req w => decodeRequest w requestRow
  | .ack w => .ok (decodeAckCode par w)
  | .wdata w => decodeWdata w
  | .rdata w => .ok (decodeRdata w)
  | .lineReset w => if w = lineResetBits par then .ok .lineReset else .error .badSequence
  | .jtagToSwd w => if w = jtagToSwdBits par then .ok .jtagToSwd else .error .badSequence
  | .idle8 w => if w = idle8Bits par then .ok .idle8 else .error .badSequence

/-- The command word of R96 from its fields; the reserved bits and the unused fields are 0. -/
def commandWord (op : BitVec 4) (width : BitVec 2) (kind : BitVec 1) (regAddr apIndex : BitVec 8) : Word :=
  0#8 ++ apIndex ++ regAddr ++ 0#1 ++ kind ++ width ++ op

/-- The words of an operation. -/
def encode (par : Params) : Instr → Frame
  | .connect => .cmd (commandWord 0x0#4 0#2 0#1 0#8 0#8) 0#32 0#32
  | .disconnect => .cmd (commandWord 0x1#4 0#2 0#1 0#8 0#8) 0#32 0#32
  | .reset => .cmd (commandWord 0x2#4 0#2 0#1 0#8 0#8) 0#32 0#32
  | .invalidate => .cmd (commandWord 0x3#4 0#2 0#1 0#8 0#8) 0#32 0#32
  | .readmem w addr => .cmd (commandWord 0x4#4 (encodeWidthCode w) 0#1 0#8 0#8) addr 0#32
  | .writemem w addr v => .cmd (commandWord 0x5#4 (encodeWidthCode w) 0#1 0#8 0#8) addr v
  | .readportDp r => .cmd (commandWord 0x6#4 0#2 0#1 r 0#8) 0#32 0#32
  | .readportAp ap r => .cmd (commandWord 0x6#4 0#2 1#1 r ap) 0#32 0#32
  | .writeportDp r v => .cmd (commandWord 0x7#4 0#2 0#1 r 0#8) 0#32 v
  | .writeportAp ap r v => .cmd (commandWord 0x7#4 0#2 1#1 r ap) 0#32 v
  | .reqDpW0 => .req (requestWord false false 0#2)
  | .reqDpW4 => .req (requestWord false false 1#2)
  | .reqDpW8 => .req (requestWord false false 2#2)
  | .reqDpWC => .req (requestWord false false 3#2)
  | .reqDpR0 => .req (requestWord false true 0#2)
  | .reqDpR4 => .req (requestWord false true 1#2)
  | .reqDpR8 => .req (requestWord false true 2#2)
  | .reqDpRC => .req (requestWord false true 3#2)
  | .reqApW0 => .req (requestWord true false 0#2)
  | .reqApW4 => .req (requestWord true false 1#2)
  | .reqApW8 => .req (requestWord true false 2#2)
  | .reqApWC => .req (requestWord true false 3#2)
  | .reqApR0 => .req (requestWord true true 0#2)
  | .reqApR4 => .req (requestWord true true 1#2)
  | .reqApR8 => .req (requestWord true true 2#2)
  | .reqApRC => .req (requestWord true true 3#2)
  | .req a r a32 => .sendRequest (requestWord a r a32)
  | .ackOk => .ack par.ackOk
  | .ackWait => .ack par.ackWait
  | .ackFault => .ack par.ackFault
  | .ackUndecodable000 => .ack ((undecodableCodes par).getD 0 0b000#3)
  | .ackUndecodable011 => .ack ((undecodableCodes par).getD 1 0b011#3)
  | .ackUndecodable101 => .ack ((undecodableCodes par).getD 2 0b101#3)
  | .ackUndecodable110 => .ack ((undecodableCodes par).getD 3 0b110#3)
  | .ackUndecodable111 => .ack ((undecodableCodes par).getD 4 0b111#3)
  | .wdata v => .wdata (wdataWord v)
  | .rdata v p t => .rdata (rdataWord v p t)
  | .lineReset => .lineReset (lineResetBits par)
  | .jtagToSwd => .jtagToSwd (jtagToSwdBits par)
  | .idle8 => .idle8 (idle8Bits par)

/-- The frame of a word of the opcode table: its format is told by the table's width (32 CMD, 8 REQ and IDLE8, 3 ACK, 34
WDATA and RDATA, 16 and 56 SEQ; a width is rounded up to whole bytes). Three words fit two rows each: 0 in 8 bits is read
as IDLE8, a 34-bit word that is a correct write packet as WDATA, and a request as its own row rather than the generic one
(log entry 7). A CMD may be followed by its ADDR and WDATA words. -/
def tableFrame (nbits w : Nat) : Option Frame :=
  if w < 2 ^ nbits then
    match nbits with
    | 3 => some (.ack (BitVec.ofNat 3 w))
    | 8 =>
      if w = 0 then some (.idle8 (lsbf (BitVec.ofNat 8 w)))
      else if w < 8 then some (.ack (BitVec.ofNat 3 w))
      else some (.req (BitVec.ofNat 8 w))
    | 16 => some (.jtagToSwd (lsbf (BitVec.ofNat 16 w)))
    | 56 => some (.lineReset (lsbf (BitVec.ofNat 56 w)))
    | 34 | 40 =>
      if 2 ^ 34 ≤ w then none
      else match decodeWdata (BitVec.ofNat 34 w) with
        | .ok _ => some (.wdata (BitVec.ofNat 34 w))
        | .error _ => some (.rdata (BitVec.ofNat 34 w))
    | 32 | 64 | 96 =>
      some (.cmd (BitVec.ofNat 32 w) (BitVec.ofNat 32 (w >>> 32)) (BitVec.ofNat 32 (w >>> 64)))
    | _ => none
  else none

/-- The operation the decoder reads from a word of the opcode table, whose acknowledgement and sequence rows are those of
the parameters' values in R6. -/
def decodeTableWord (nbits w : Nat) : Option Instr :=
  match tableFrame nbits w with
  | some f => (decode Config.defaultParams f).toOption
  | none => none

end Sys2Proof
end

