-- ==== Sys2Proof/Machine/State.lean ====
section
/-! DEFINITION. The state of the block (spec/10_state.md): the record `S`, the wire trace `T`, the position inside the
operation in progress (R18, R19), the ports it reads and answers (spec/30_encoding.md R95, spec/00_scope.md R7), and the
parameters of R6. All of it is plain data. -/

namespace Sys2Proof.Machine

/-- The five session states (R10, R200). -/
inductive Session
  | disconnected
  | connecting
  | synced
  | poweredUp
  | ready
deriving DecidableEq, Repr

/-- What the SelectCache holds: an access port and one of its banks (R11). -/
structure Bank where
  ap : BitVec 8
  bank : BitVec 4
deriving DecidableEq, Repr

/-- An event of the block at the BitLink boundary (R25). -/
inductive Event
  | drive (b : Bool)
  | sample (b : Bool)
  | linkConnect
  | linkDisconnect
deriving DecidableEq, Repr

/-- A command as the host presents it: the words CMD, ADDR and WDATA (R95). -/
structure Command where
  cmd : Word
  addr : Word
  wdata : Word
deriving DecidableEq, Repr

/-- A response as the block presents it (R95, R100). -/
structure Response where
  status : BitVec 8
  rdata : Word
deriving DecidableEq, Repr

/-- The errors an operation inside a command can raise (R231). -/
inductive OpError
  | busy
  | fault
  | noAck
  | parity
  | powerUpTimeout
deriving DecidableEq, Repr

/-- The outcome of a command: `Ok(value)` or one error (R230, R231). -/
inductive CmdResult
  | ok (value : Word)
  | error (e : OpError)
  | connectError (cause : OpError)
  | notReady
  | alreadyConnected
  | illegalCommand
deriving DecidableEq, Repr

/-- A register access: `dpRead`, `dpWrite`, `apRead`, `apWrite` (R142, R148, R149). -/
inductive Access
  | dpRead (off : BitVec 8)
  | dpWrite (off : BitVec 8) (value : Word)
  | apRead (ap regAddr : BitVec 8)
  | apWrite (ap regAddr : BitVec 8) (value : Word)
deriving DecidableEq, Repr

/-- The operands of the memory command in progress, its width decoded (R174, R176). -/
structure MemOp where
  write : Bool
  width : Width
  addr : Word
  value : Word
deriving DecidableEq, Repr

/-- Why the disconnect sequence runs: a DISCONNECT (R208), the first half of a RESET (R210), or a failed CONNECT and the
error that failed it (R204). -/
inductive DisconnectReason
  | command
  | reset
  | connectFailed (cause : OpError)
deriving DecidableEq, Repr

/-- The step labels (R18). `c2Switch`, `c2Reset` and `c2Idle` are the three sequences of step C2 (R126); `m1` is no label
of its own, it is the SELECT write inside `m2` (R175, R177); `u3` carries the counter `polls` (R19). -/
inductive Pos
  | c1
  | c2Switch
  | c2Reset
  | c2Idle
  | c3
  | c4
  | c5
  | c6
  | u1
  | u2
  | u3 (polls : Nat)
  | n1
  | n2
  | n3
  | n4
  | m2 (op : MemOp)
  | m3 (op : MemOp)
  | m4 (op : MemOp)
  /-- The one access of a READPORT or WRITEPORT (R152, R153). -/
  | port (acc : Access)
  /-- The line reset that begins the disconnect sequence (R206). -/
  | disc (why : DisconnectReason)
deriving DecidableEq, Repr

/-- What a transaction is for: the access its step asked for; the SELECT write of `selectBank`, with the AP transfer that
waits for it (R146); or the ABORT write of `clearStickyError` (R150). -/
inductive Role
  | access
  | select (target : Bank) (rnw : Bool) (a32 : BitVec 2) (wdata : Word)
  | clear
deriving DecidableEq, Repr

/-- One transaction: the request's operands, the word a write sends, and what it is for (R8, R128, R129). -/
structure Tx where
  apndp : Bool
  rnw : Bool
  a32 : BitVec 2
  wdata : Word
  role : Role
deriving DecidableEq, Repr

/-- The fixed sequences (R80 to R82). -/
inductive LineSeq
  | lineReset
  | jtagToSwd
  | idle8
deriving DecidableEq, Repr

/-- What the wire does next inside a step (R18, R115): a fixed sequence; the call of `sendRequest`; its step Q1 or Q2 with
the counter `attempt` (R19), Q3 and Q4 being what an acknowledgement does; the data phase. -/
inductive Phase
  | line (l : LineSeq)
  | issue (t : Tx)
  | q1 (t : Tx) (attempt : Nat)
  | q2 (t : Tx) (attempt : Nat)
  | data (t : Tx)
deriving DecidableEq, Repr

/-- The sequencer: no command executing, or a step of one and its wire phase (R18, R95). -/
inductive Sequencer
  | idle
  | busy (pos : Pos) (phase : Phase)
deriving DecidableEq, Repr

/-- The state. -/
structure State where
  /-- `S.sess` (R10). -/
  sess : Session
  /-- `S.sel`, the SelectCache (R11). -/
  sel : Option Bank
  /-- `S.width`, the AccessWidth (R13). -/
  width : Option Width
  /-- `S.idcode` (R15). -/
  idcode : Option Word
  /-- `S.rdata` (R16). -/
  rdata : Word
  /-- `S.status` (R16). -/
  status : BitVec 8
  /-- `T`, the wire trace, in time order (R25). -/
  trace : List Event
  /-- A BitLink connection is open (R33, R205). -/
  linkOpen : Bool
  /-- The position inside the operation in progress, with its counters (R18, R19). -/
  seq : Sequencer
  /-- The command port: the commands the host presents and the block has not accepted yet, in order (R95). -/
  cmds : List Command
  /-- The response port: every response presented, in order (R95). -/
  rsps : List Response
  /-- The answers of the environment: the bits it supplies next, in order (R7). -/
  wireIn : List Bool
  /-- How many free bits have been sampled since `wireIn` ran out: the model's own counter (log entry 3). -/
  freeUsed : Nat
  /-- The block's reset input at the coming steps; low once the list ends (R270; log entry 4). -/
  resetIn : List Bool
  /-- The parameters of R6; no step changes them (log entry 2). -/
  par : Params
deriving DecidableEq, Repr

/-- The reasons a step can stop with a fault. -/
inductive Fault
  /-- Raised by `step` when the block's own sequencer presents wire bits that its decoder refuses. It stands for the
  totality of `step` only: the block produces no such bits (R101), so no step raises it, and it would be safe. -/
  | strayFrame
deriving DecidableEq, Repr

/-- The reasons a step can stop with a refusal. -/
inductive Refusal
  /-- Raised by `exec` for an operation that has no meaning yet; every operation has one, so no arm raises it (safe). -/
  | notModelled (mnemonic : String)
deriving DecidableEq, Repr

/-- The block right after its reset (R33, R270): disconnected, both caches and the IDCODE latch empty, latches zero, the
trace empty, no link open, no transaction in progress; nothing waits at its ports, and the parameters have the values of
R6 (log entries 2, 3 and 5). -/
def State.reset : State where
  sess := .disconnected
  sel := none
  width := none
  idcode := none
  rdata := 0#32
  status := 0x00#8
  trace := []
  linkOpen := false
  seq := .idle
  cmds := []
  rsps := []
  wireIn := []
  freeUsed := 0
  resetIn := []
  par := Config.defaultParams

end Sys2Proof.Machine
end

