-- ==== Sys2Proof/Machine/Operands.lean ====
section
/-! DEFINITION. How every value that crosses the wire is assembled (spec/30_encoding.md R84): the target register tables
(spec/10_state.md R22 to R31), the register address decoders (spec/41_port_register_space.md R141, R144), the lane
functions (spec/42_mem_ap.md R170 to R173) and the status codes (spec/60_exceptions.md R232). The registers themselves are
the target's, not the block's (R22). -/

namespace Sys2Proof.Machine

/-- How a register may be accessed (R31); the block never checks it (R152). -/
inductive AccessMode
  | readOnly
  | writeOnly
  | readWrite
deriving DecidableEq, Repr

/-- "Only a register's address, width, and access mode" (R31). -/
structure RegisterDescriptor where
  addr : BitVec 8
  bits : Nat
  mode : AccessMode
deriving DecidableEq, Repr

/-- DP.IDCODE (R22, R24). -/
def dpIdcode : RegisterDescriptor := ⟨0x0#8, 32, .readOnly⟩

/-- DP.ABORT (R22, R23). -/
def dpAbort : RegisterDescriptor := ⟨0x0#8, 32, .writeOnly⟩

/-- DP.CTRLSTAT (R22, R26). -/
def dpCtrlstat : RegisterDescriptor := ⟨0x4#8, 32, .readWrite⟩

/-- DP.SELECT (R22, R27). -/
def dpSelect : RegisterDescriptor := ⟨0x8#8, 32, .writeOnly⟩

/-- MEM-AP CSW (R28, R29). -/
def apCsw : RegisterDescriptor := ⟨0x00#8, 32, .readWrite⟩

/-- MEM-AP TAR (R28, R30). -/
def apTar : RegisterDescriptor := ⟨0x04#8, 32, .readWrite⟩

/-- MEM-AP DRW (R28, R30). -/
def apDrw : RegisterDescriptor := ⟨0x0C#8, 32, .readWrite⟩

/-- ABORT as CONNECT step C4 writes it: the source's literal 0x1F (R23). -/
def abortConnect : Word := 0x0000001F#32

/-- ABORT with STKERRCLR = 1 alone (R23, R150). -/
def abortStkErrClr : Word := 0x00000004#32

/-- CTRLSTAT as CONNECT step C5 writes it: MASKLANE = 0xF, TRNMODE = 0, the rest 0 (R26). -/
def ctrlstatInit : Word := 0x00000F00#32

/-- CTRLSTAT as powerUp step U2 writes it: the above with CSYSPWRUPREQ and CDBGPWRUPREQ (R26). -/
def ctrlstatPowerUp : Word := 0x50000F00#32

/-- Both CSYSPWRUPACK (bit 31) and CDBGPWRUPACK (bit 29) are set (R186). -/
def powerUpAcked (r : Word) : Bool := r.getLsbD 31 && r.getLsbD 29

/-- `A32 = offset[3:2]` of a DP access, `regAddr[3:2]` of an AP access (R141, R144). -/
def a32Of (regAddr : BitVec 8) : BitVec 2 := regAddr.extractLsb' 2 2

/-- The bank of an AP register: `regAddr[7:4]` of access port `ap` (R144). -/
def bankOf (ap regAddr : BitVec 8) : Bank := ⟨ap, regAddr.extractLsb' 4 4⟩

/-- The SELECT word: APSEL in bits 31:24, APBANKSEL in bits 7:4, the rest 0 (R27, R146). -/
def selectWord (b : Bank) : Word :=
  (b.ap.setWidth 32 <<< 24) ||| (b.bank.setWidth 32 <<< 4)

/-- `mask(w)` (R171). -/
def mask : Width → Word
  | .w8 => 0x000000FF#32
  | .w16 => 0x0000FFFF#32
  | .w32 => 0xFFFFFFFF#32

/-- `shift(w, addr)` (R171). -/
def shift : Width → Word → Nat
  | .w8, addr => 8 * (addr &&& 0x3#32).toNat
  | .w16, addr => 8 * (addr &&& 0x2#32).toNat
  | .w32, _ => 0

/-- The DRW word of a write: the datum masked, then moved to its lane (R174, R179). -/
def drwWord (w : Width) (addr value : Word) : Word := (value &&& mask w) <<< shift w addr

/-- The result of a read: the lane moved down, then masked (R176). -/
def laneOf (w : Width) (addr drw : Word) : Word := (drw >>> shift w addr) &&& mask w

/-- `sizecode(w)` (R29, R173). -/
def sizeCode : Width → BitVec 3
  | .w8 => 0b000#3
  | .w16 => 0b001#3
  | .w32 => 0b010#3

/-- `cswValue(w) = CSW_FIXED | sizecode(w)` (R173). -/
def cswValue (par : Params) (w : Width) : Word := par.cswFixed ||| (sizeCode w).setWidth 32

/-- The CSW read-back holds the size code of `w` in bits 2:0 (R182). -/
def sizeAccepted (w : Width) (r : Word) : Bool := r.extractLsb' 0 3 == sizeCode w

/-- `decodeWidth(code)` (R172). Code 3 with no session default does not arise in a run (R205); the width is then a free
value (log entry 8). -/
def decodeWidth (code : WidthCode) (s : State) : Width :=
  match code with
  | .w8 => .w8
  | .w16 => .w16
  | .w32 => .w32
  | .session =>
    match s.width with
    | some w => w
    | none => Config.freeWidth s.freeUsed

/-- The outcome code of an operation error (R232). -/
def errorCode : OpError → BitVec 4
  | .busy => 0x1#4
  | .fault => 0x2#4
  | .noAck => 0x3#4
  | .parity => 0x4#4
  | .powerUpTimeout => 0x6#4

/-- STATUS: the outcome code in bits 3:0, the cause code in bits 7:4 (R100, R232). -/
def statusOf : CmdResult → BitVec 8
  | .ok _ => 0x00#8
  | .error e => 0x0#4 ++ errorCode e
  | .connectError cause => errorCode cause ++ 0x5#4
  | .notReady => 0x07#8
  | .alreadyConnected => 0x08#8
  | .illegalCommand => 0x09#8

/-- RDATA: the value of an `Ok(v)` outcome and 0 otherwise (R16, R100). -/
def rdataOf : CmdResult → Word
  | .ok v => v
  | .error _ | .connectError _ | .notReady | .alreadyConnected | .illegalCommand => 0#32

end Sys2Proof.Machine
end

