-- ==== Sys2Proof/Machine/Ops.lean ====
section
/-! DEFINITION. The operations every meaning is written over: the wire primitives of spec/00_scope.md R8, the completion
of a command (spec/30_encoding.md R95, R100), the way into a step of the sequencer, the end of a transaction, and the
raising of an error (spec/60_exceptions.md R230, R245), which is what this block has for taking an exception: nothing is
saved and control goes nowhere, the error travels to the step's caller (R245, R247). -/

namespace Sys2Proof.Machine

/-- `Drive(s)`: the bits are driven in order (R8). -/
def drive (bits : List Bool) (s : State) : State :=
  { s with trace := s.trace ++ bits.map Event.drive }

/-- `Sample(1)`: one bit the environment supplies, listed or free (R7, R8; log entry 3). -/
def sampleBit (s : State) : Bool × State :=
  match s.wireIn with
  | b :: rest => (b, { s with wireIn := rest, trace := s.trace ++ [Event.sample b] })
  | [] =>
    (Config.freeSample s.freeUsed,
      { s with freeUsed := s.freeUsed + 1, trace := s.trace ++ [Event.sample (Config.freeSample s.freeUsed)] })

/-- `Sample(n)`: `n` bits in time order (R8). -/
def sampleBits : Nat → State → List Bool × State
  | 0, s => ([], s)
  | n + 1, s =>
    let first := sampleBit s
    let others := sampleBits n first.2
    (first.1 :: others.1, others.2)

/-- `Sample(n)` whose bits are discarded. -/
def discardBits (n : Nat) (s : State) : State := (sampleBits n s).2

/-- `LinkConnect()` (R8). -/
def linkConnect (s : State) : State :=
  { s with trace := s.trace ++ [Event.linkConnect], linkOpen := true }

/-- `LinkDisconnect()` (R8). -/
def linkDisconnect (s : State) : State :=
  { s with trace := s.trace ++ [Event.linkDisconnect], linkOpen := false }

/-- The command ends: its latches are written, its response is presented, and the block is idle (R16, R95, R100). -/
def complete (r : CmdResult) (s : State) : State :=
  { s with
    rdata := rdataOf r
    status := statusOf r
    rsps := s.rsps ++ [⟨statusOf r, rdataOf r⟩]
    seq := .idle }

/-- The block accepts a command only when it is idle; while a command executes no other has any effect (R95; log
entry 6). -/
def whenIdle (accepted : State) (s : State) : State := if s.seq = .idle then accepted else s

/-- The sequencer goes to a step and a phase of it. -/
def goto (p : Pos) (ph : Phase) (s : State) : State := { s with seq := .busy p ph }

/-- The transaction of a register access itself (R142, R148, R149). -/
def accessTx : Access → Tx
  | .dpRead off => ⟨false, true, a32Of off, 0#32, .access⟩
  | .dpWrite off v => ⟨false, false, a32Of off, v, .access⟩
  | .apRead _ reg => ⟨true, true, a32Of reg, 0#32, .access⟩
  | .apWrite _ reg v => ⟨true, false, a32Of reg, v, .access⟩

/-- The SELECT write of `selectBank`, with the AP transfer that waits for it (R146). -/
def selectTx (b : Bank) (rnw : Bool) (a32 : BitVec 2) (wdata : Word) : Tx :=
  ⟨false, false, a32Of dpSelect.addr, selectWord b, .select b rnw a32 wdata⟩

/-- The ABORT write of `clearStickyError` (R150). -/
def clearTx : Tx := ⟨false, false, a32Of dpAbort.addr, abortStkErrClr, .clear⟩

/-- An AP access begins with `selectBank` (R145, R146): on a hit the transfer itself is next; on a miss the cache is
emptied and the SELECT write is next. -/
def startAp (p : Pos) (b : Bank) (t : Tx) (s : State) : State :=
  if s.sel = some b then goto p (.issue t) s
  else goto p (.issue (selectTx b t.rnw t.a32 t.wdata)) { s with sel := none }

/-- A register access begins: a DP access at once, emptying the cache first if it writes SELECT (R142, R143); an AP access
through `selectBank` (R148, R149). -/
def startAccess (p : Pos) (a : Access) (s : State) : State :=
  match a with
  | .dpRead _ => goto p (.issue (accessTx a)) s
  | .dpWrite off _ =>
    goto p (.issue (accessTx a)) (if off = dpSelect.addr then { s with sel := none } else s)
  | .apRead ap reg => startAp p (bankOf ap reg) (accessTx a) s
  | .apWrite ap reg _ => startAp p (bankOf ap reg) (accessTx a) s

/-- What a step does on the wire: a fixed sequence or one register access. -/
inductive Plan
  | line (l : LineSeq)
  | access (a : Access)
deriving DecidableEq, Repr

/-- The step table: CONNECT steps C1 to C6 (R203), `switchProtocol` (R126), powerUp U1 to U3 (R185), negotiateWidth N1 to
N4 (R180), the memory operation M2 to M4 (R174 to R176), a port command's access (R152, R153) and the line reset of the
disconnect sequence (R206). -/
def plan (par : Params) : Pos → Plan
  | .c1 => .line .lineReset
  | .c2Switch => .line .jtagToSwd
  | .c2Reset => .line .lineReset
  | .c2Idle => .line .idle8
  | .c3 => .access (.dpRead dpIdcode.addr)
  | .c4 => .access (.dpWrite dpAbort.addr abortConnect)
  | .c5 => .access (.dpWrite dpCtrlstat.addr ctrlstatInit)
  | .c6 => .access (.dpWrite dpSelect.addr 0#32)
  | .u1 => .access (.dpWrite dpSelect.addr 0#32)
  | .u2 => .access (.dpWrite dpCtrlstat.addr ctrlstatPowerUp)
  | .u3 _ => .access (.dpRead dpCtrlstat.addr)
  | .n1 => .access (.apWrite par.memapIndex apCsw.addr (cswValue par .w8))
  | .n2 => .access (.apRead par.memapIndex apCsw.addr)
  | .n3 => .access (.apWrite par.memapIndex apCsw.addr (cswValue par .w16))
  | .n4 => .access (.apRead par.memapIndex apCsw.addr)
  | .m2 op => .access (.apWrite par.memapIndex apCsw.addr (cswValue par op.width))
  | .m3 op => .access (.apWrite par.memapIndex apTar.addr op.addr)
  | .m4 op =>
    if op.write then .access (.apWrite par.memapIndex apDrw.addr (drwWord op.width op.addr op.value))
    else .access (.apRead par.memapIndex apDrw.addr)
  | .port a => .access a
  | .disc _ => .line .lineReset

/-- The sequencer enters a step. -/
def enter (p : Pos) (s : State) : State :=
  match plan s.par p with
  | .line l => goto p (.line l) s
  | .access a => startAccess p a s

/-- The step is one of CONNECT C1 to C8 (R204). -/
def inConnect : Pos → Bool
  | .c1 | .c2Switch | .c2Reset | .c2Idle | .c3 | .c4 | .c5 | .c6 => true
  | .u1 | .u2 | .u3 _ | .n1 | .n2 | .n3 | .n4 => true
  | .m2 _ | .m3 _ | .m4 _ | .port _ | .disc _ => false

/-- `raise`, as the command sees it (R230, R245): inside CONNECT the disconnect sequence runs and will report
`ConnectError` (R204); elsewhere the command completes with the error. -/
def raise (p : Pos) (e : OpError) (s : State) : State :=
  if inConnect p then enter (.disc (.connectFailed e)) s else complete (.error e) s

/-- CONNECT from its step C0 (R203). -/
def startConnect (s : State) : State :=
  enter .c1 (linkConnect { s with sess := .connecting })

/-- The end of `disconnectSequence`, after its line reset (R206). -/
def closeSession (s : State) : State :=
  { linkDisconnect s with sess := .disconnected, sel := none, width := none, idcode := none }

/-- A poll read of powerUp step U3 begins, unless the bound is reached (R185, R187). -/
def startPoll (polls : Nat) (s : State) : State :=
  if s.par.powerupPollBound = some polls then raise (.u3 polls) .powerUpTimeout s
  else enter (.u3 polls) s

/-- CONNECT ends after negotiateWidth (R180, R203). -/
def endConnect (w : Width) (s : State) : State :=
  complete (.ok 0#32) { s with width := some w, sess := .ready }

/-- A step of the sequencer has returned, with the word it read (0 where it reads none). -/
def stepDone (p : Pos) (v : Word) (s : State) : State :=
  match p with
  | .c1 => enter .c2Switch s
  | .c2Switch => enter .c2Reset s
  | .c2Reset => enter .c2Idle s
  | .c2Idle => enter .c3 s
  | .c3 => enter .c4 { s with idcode := some v, sess := .synced }
  | .c4 => enter .c5 s
  | .c5 => enter .c6 s
  | .c6 => enter .u1 s
  | .u1 => enter .u2 s
  | .u2 => startPoll 0 s
  | .u3 polls =>
    if powerUpAcked v then enter .n1 { s with sess := .poweredUp }
    else startPoll (polls + 1) s
  | .n1 => enter .n2 s
  | .n2 => if sizeAccepted .w8 v then endConnect .w8 s else enter .n3 s
  | .n3 => enter .n4 s
  | .n4 => if sizeAccepted .w16 v then endConnect .w16 s else endConnect .w32 s
  | .m2 op => enter (.m3 op) s
  | .m3 op => enter (.m4 op) s
  | .m4 op => complete (.ok (if op.write then 0#32 else laneOf op.width op.addr v)) s
  | .port a =>
    match a with
    | .dpRead _ | .apRead _ _ => complete (.ok v) s
    | .dpWrite _ _ | .apWrite _ _ _ => complete (.ok 0#32) s
  | .disc why =>
    match why with
    | .command => complete (.ok 0#32) (closeSession s)
    | .reset => startConnect (closeSession s)
    | .connectFailed cause => complete (.connectError cause) (closeSession s)

/-- A transaction has returned a value: the step's access is done; or `selectBank` commits the cache and the AP transfer
begins (R146); or `clearStickyError` is over and the FaultError it followed is raised (R140, R150). -/
def txOk (p : Pos) (t : Tx) (v : Word) (s : State) : State :=
  match t.role with
  | .access => stepDone p v s
  | .select b rnw a32 wdata => goto p (.issue ⟨true, rnw, a32, wdata, .access⟩) { s with sel := some b }
  | .clear => raise p .fault s

/-- A transaction has raised: `guarded` issues one ABORT write after a FaultError and passes the other errors on (R140);
an error of that ABORT write is discarded for the FaultError it followed (R150). -/
def txError (p : Pos) (t : Tx) (e : OpError) (s : State) : State :=
  match t.role with
  | .clear => raise p .fault s
  | .access | .select _ _ _ _ =>
    match e with
    | .fault => goto p (.issue clearTx) s
    | .busy | .noAck | .parity | .powerUpTimeout => raise p e s

end Sys2Proof.Machine
end

