-- ==== Sys2Proof/Machine/Acks.lean ====
section
/-! DEFINITION. The acknowledgement rows: steps Q3 and Q4 of `sendRequest` (spec/40_swd_transport.md R115 to R121). The
four bits of step Q2 have been sampled when a row is reached (Machine/Fetch.lean). Where the sequencer awaits no
acknowledgement a row changes nothing (log entry 6). -/

namespace Sys2Proof.Machine

/-- Ack OK: `sendRequest` returns and the data phase is the caller's (R116). -/
def execAckOk (s : State) : Host.Outcome State Fault Refusal :=
  match s.seq with
  | .busy p (.q2 t _) => .next (goto p (.data t) s)
  | _ => .next s

/-- Ack WAIT: with attempts left, a turnaround bit is sampled and the same frame is sent again (R118); on the last
attempt BusyError is raised (R119). -/
def execAckWait (s : State) : Host.Outcome State Fault Refusal :=
  match s.seq with
  | .busy p (.q2 t attempt) =>
    if attempt < s.par.waitRetryBound then .next (goto p (.q1 t (attempt + 1)) (discardBits 1 s))
    else .next (txError p t .busy (discardBits s.par.ackErrTrn.val s))
  | _ => .next s

/-- An ack that ends the transaction with an error: `ACK_ERR_TRN` bits are sampled and the error is raised (R117,
R120). -/
def ackRaises (e : OpError) (s : State) : Host.Outcome State Fault Refusal :=
  match s.seq with
  | .busy p (.q2 t _) => .next (txError p t e (discardBits s.par.ackErrTrn.val s))
  | _ => .next s

/-- Ack FAULT (R117). -/
def execAckFault (s : State) : Host.Outcome State Fault Refusal := ackRaises .fault s

/-- Ack 0b000 (R120). -/
def execAckUndecodable000 (s : State) : Host.Outcome State Fault Refusal := ackRaises .noAck s

/-- Ack 0b011 (R120). -/
def execAckUndecodable011 (s : State) : Host.Outcome State Fault Refusal := ackRaises .noAck s

/-- Ack 0b101 (R120). -/
def execAckUndecodable101 (s : State) : Host.Outcome State Fault Refusal := ackRaises .noAck s

/-- Ack 0b110 (R120). -/
def execAckUndecodable110 (s : State) : Host.Outcome State Fault Refusal := ackRaises .noAck s

/-- Ack 0b111 (R120). -/
def execAckUndecodable111 (s : State) : Host.Outcome State Fault Refusal := ackRaises .noAck s

end Sys2Proof.Machine
end

