-- ==== Sys2Proof/Machine/DataPhase.lean ====
section
/-! DEFINITION. The data packets: `sendData` and `readData` (spec/40_swd_transport.md R122 to R124). The 34 bits of a
read have been sampled when RDATA is reached (Machine/Fetch.lean). Outside its data phase a write packet is only driven
and a read packet changes nothing (log entry 6). -/

namespace Sys2Proof.Machine

/-- `sendData(value)`: turnaround, data, parity and the idle bits are driven, and the write transaction has returned
(R122, R129). -/
def execWdata (value : Word) (s : State) : Host.Outcome State Fault Refusal :=
  let s1 := drive (wdataBits value ++ zeros s.par.postWriteIdle) s
  match s1.seq with
  | .busy p (.data t) => if t.rnw then .next s1 else .next (txOk p t 0#32 s1)
  | _ => .next s1

/-- `readData()`: the received word is returned if its parity agrees, and ParityError is raised and the word dropped if
not; the turnaround bit is ignored (R123, R124, R128). -/
def execRdata (value : Word) (parity _turnaround : Bool) (s : State) : Host.Outcome State Fault Refusal :=
  match s.seq with
  | .busy p (.data t) =>
    if t.rnw then
      if parity32 value = parity then .next (txOk p t value s) else .next (txError p t .parity s)
    else .next s
  | _ => .next s

end Sys2Proof.Machine
end

