-- ==== Sys2Proof/Machine/LineControl.lean ====
section
/-! DEFINITION. The fixed sequences: `lineReset` and the parts of `switchProtocol` (spec/40_swd_transport.md R125, R126).
Where the sequencer is not at a step of that sequence, the bits are only driven (log entry 6). -/

namespace Sys2Proof.Machine

/-- The bits are driven, and a step that sends this sequence has returned. -/
def driveLine (l : LineSeq) (bits : List Bool) (s : State) : Host.Outcome State Fault Refusal :=
  let s1 := drive bits s
  match s1.seq with
  | .busy p (.line l') => if l' = l then .next (stepDone p 0#32 s1) else .next s1
  | _ => .next s1

/-- 56 one bits (R125). -/
def execLineReset (s : State) : Host.Outcome State Fault Refusal :=
  driveLine .lineReset (lineResetBits s.par) s

/-- The 16-bit JTAG-to-SWD sequence (R126). -/
def execJtagToSwd (s : State) : Host.Outcome State Fault Refusal :=
  driveLine .jtagToSwd (jtagToSwdBits s.par) s

/-- Eight idle bits (R126). -/
def execIdle8 (s : State) : Host.Outcome State Fault Refusal := driveLine .idle8 (idle8Bits s.par) s

end Sys2Proof.Machine
end

