-- ==== Sys2Proof/Machine/MemoryCommands.lean ====
section
/-! DEFINITION. The memory commands (spec/42_mem_ap.md R174 to R178). A command's meaning is what it does when it is
accepted: the admission check and the way into `memSetup`; the steps M2, M3 and M4 (`plan`, `stepDone`, Machine/Ops.lean)
write CSW and TAR and move DRW. -/

namespace Sys2Proof.Machine

/-- A memory command is admitted in Ready only (R202, R239) and begins at M1/M2 (R175, R177). -/
def startMem (write : Bool) (code : WidthCode) (addr value : Word) (s : State) : State :=
  if s.sess = .ready then enter (.m2 ⟨write, decodeWidth code s, addr, value⟩) s
  else complete .notReady s

/-- READMEM (R176). -/
def execReadmem (code : WidthCode) (addr : Word) (s : State) : Host.Outcome State Fault Refusal :=
  .next (whenIdle (startMem false code addr 0#32 s) s)

/-- WRITEMEM (R174). -/
def execWritemem (code : WidthCode) (addr value : Word) (s : State) : Host.Outcome State Fault Refusal :=
  .next (whenIdle (startMem true code addr value s) s)

end Sys2Proof.Machine
end

