-- ==== Sys2Proof/Machine/PortCommands.lean ====
section
/-! DEFINITION. The port commands (spec/41_port_register_space.md R152, R153): legality (spec/30_encoding.md R99), then
admission (spec/43_debug_session.md R202), then one register access, whose mode is not checked (R31). -/

namespace Sys2Proof.Machine

/-- The two checks of a port command in their order (R240), then its access. -/
def startPort (legal : Prop) [Decidable legal] (a : Access) (s : State) : State :=
  if ¬ legal then complete .illegalCommand s
  else if s.sess = .ready then enter (.port a) s
  else complete .notReady s

/-- READPORT of a DP register (R152, R141). -/
def execReadportDp (regAddr : BitVec 8) (s : State) : Host.Outcome State Fault Refusal :=
  .next (whenIdle (startPort (alignedReg regAddr ∧ dpOffset regAddr) (.dpRead regAddr) s) s)

/-- READPORT of an AP register (R152, R144). -/
def execReadportAp (apIndex regAddr : BitVec 8) (s : State) : Host.Outcome State Fault Refusal :=
  .next (whenIdle (startPort (alignedReg regAddr) (.apRead apIndex regAddr) s) s)

/-- WRITEPORT of a DP register (R153, R141). -/
def execWriteportDp (regAddr : BitVec 8) (value : Word) (s : State) : Host.Outcome State Fault Refusal :=
  .next (whenIdle (startPort (alignedReg regAddr ∧ dpOffset regAddr) (.dpWrite regAddr value) s) s)

/-- WRITEPORT of an AP register (R153, R144). -/
def execWriteportAp (apIndex regAddr : BitVec 8) (value : Word) (s : State) : Host.Outcome State Fault Refusal :=
  .next (whenIdle (startPort (alignedReg regAddr) (.apWrite apIndex regAddr value) s) s)

end Sys2Proof.Machine
end

