-- ==== Sys2Proof/Machine/Requests.lean ====
section
/-! DEFINITION. The request rows: `sendRequest`'s call and its step Q1 (spec/40_swd_transport.md R113, R115). Where the
sequencer is not at the step that sends a request, a frame is only driven (log entry 6). -/

namespace Sys2Proof.Machine

/-- Step Q1 of `sendRequest`: the frame is driven and the acknowledgement is next (R115). -/
def driveRequest (a r : Bool) (a32 : BitVec 2) (s : State) : Host.Outcome State Fault Refusal :=
  let s1 := drive (reqFrame a r a32) s
  match s1.seq with
  | .busy p (.q1 t attempt) => .next (goto p (.q2 t attempt) s1)
  | _ => .next s1

/-- The call of `sendRequest(a, r, A32)`: `attempt <- 1`, and step Q1 is next (R115). -/
def execReq (a r : Bool) (a32 : BitVec 2) (s : State) : Host.Outcome State Fault Refusal :=
  match s.seq with
  | .busy p (.issue t) => .next (goto p (.q1 { t with apndp := a, rnw := r, a32 := a32 } 1) s)
  | _ => .next s

/-- DP write, offset 0x0 (R73). -/
def execReqDpW0 (s : State) : Host.Outcome State Fault Refusal := driveRequest false false 0#2 s

/-- DP write, offset 0x4 (R73). -/
def execReqDpW4 (s : State) : Host.Outcome State Fault Refusal := driveRequest false false 1#2 s

/-- DP write, offset 0x8 (R73). -/
def execReqDpW8 (s : State) : Host.Outcome State Fault Refusal := driveRequest false false 2#2 s

/-- DP write, offset 0xC (R73). -/
def execReqDpWC (s : State) : Host.Outcome State Fault Refusal := driveRequest false false 3#2 s

/-- DP read, offset 0x0 (R73). -/
def execReqDpR0 (s : State) : Host.Outcome State Fault Refusal := driveRequest false true 0#2 s

/-- DP read, offset 0x4 (R73). -/
def execReqDpR4 (s : State) : Host.Outcome State Fault Refusal := driveRequest false true 1#2 s

/-- DP read, offset 0x8 (R73). -/
def execReqDpR8 (s : State) : Host.Outcome State Fault Refusal := driveRequest false true 2#2 s

/-- DP read, offset 0xC (R73). -/
def execReqDpRC (s : State) : Host.Outcome State Fault Refusal := driveRequest false true 3#2 s

/-- AP write, register 0 of the bank (R73). -/
def execReqApW0 (s : State) : Host.Outcome State Fault Refusal := driveRequest true false 0#2 s

/-- AP write, register 1 of the bank (R73). -/
def execReqApW4 (s : State) : Host.Outcome State Fault Refusal := driveRequest true false 1#2 s

/-- AP write, register 2 of the bank (R73). -/
def execReqApW8 (s : State) : Host.Outcome State Fault Refusal := driveRequest true false 2#2 s

/-- AP write, register 3 of the bank (R73). -/
def execReqApWC (s : State) : Host.Outcome State Fault Refusal := driveRequest true false 3#2 s

/-- AP read, register 0 of the bank (R73). -/
def execReqApR0 (s : State) : Host.Outcome State Fault Refusal := driveRequest true true 0#2 s

/-- AP read, register 1 of the bank (R73). -/
def execReqApR4 (s : State) : Host.Outcome State Fault Refusal := driveRequest true true 1#2 s

/-- AP read, register 2 of the bank (R73). -/
def execReqApR8 (s : State) : Host.Outcome State Fault Refusal := driveRequest true true 2#2 s

/-- AP read, register 3 of the bank (R73). -/
def execReqApRC (s : State) : Host.Outcome State Fault Refusal := driveRequest true true 3#2 s

end Sys2Proof.Machine
end

