-- ==== Sys2Proof/Machine/SessionCommands.lean ====
section
/-! DEFINITION. The session commands CONNECT, DISCONNECT, RESET and INVALIDATE (spec/43_debug_session.md R202 to R212).
A command's meaning is what it does when it is accepted; the sequencer's steps (`stepDone`, Machine/Ops.lean) carry it to
its response. -/

namespace Sys2Proof.Machine

/-- CONNECT: refused with AlreadyConnected unless Disconnected (R202), else from step C0 (R203). -/
def execConnect (s : State) : Host.Outcome State Fault Refusal :=
  .next (whenIdle (if s.sess = .disconnected then startConnect s else complete .alreadyConnected s) s)

/-- DISCONNECT: the disconnect sequence, or nothing if Disconnected already (R208, R209). -/
def execDisconnect (s : State) : Host.Outcome State Fault Refusal :=
  .next (whenIdle (if s.sess = .disconnected then complete (.ok 0#32) s else enter (.disc .command) s) s)

/-- RESET: DISCONNECT's sequence if a session is open, then CONNECT from its step C0 (R210). -/
def execReset (s : State) : Host.Outcome State Fault Refusal :=
  .next (whenIdle (if s.sess = .disconnected then startConnect s else enter (.disc .reset) s) s)

/-- INVALIDATE: the SelectCache is emptied (R212). -/
def execInvalidate (s : State) : Host.Outcome State Fault Refusal :=
  .next (whenIdle (complete (.ok 0#32) { s with sel := none }) s)

end Sys2Proof.Machine
end

