-- ==== Sys2Proof/Machine/Dispatch.lean ====
section
/-! DEFINITION. What each operation does: one arm per row of spec/opcode_table.json. -/

namespace Sys2Proof.Machine

def exec (i : Instr) (s : State) : Host.Outcome State Fault Refusal :=
  match i with
  | .connect => Sys2Proof.Machine.execConnect s
  | .disconnect => Sys2Proof.Machine.execDisconnect s
  | .reset => Sys2Proof.Machine.execReset s
  | .invalidate => Sys2Proof.Machine.execInvalidate s
  | .readmem width addr => Sys2Proof.Machine.execReadmem width addr s
  | .writemem width addr value => Sys2Proof.Machine.execWritemem width addr value s
  | .readportDp regAddr => Sys2Proof.Machine.execReadportDp regAddr s
  | .readportAp apIndex regAddr => Sys2Proof.Machine.execReadportAp apIndex regAddr s
  | .writeportDp regAddr value => Sys2Proof.Machine.execWriteportDp regAddr value s
  | .writeportAp apIndex regAddr value => Sys2Proof.Machine.execWriteportAp apIndex regAddr value s
  | .reqDpW0 => Sys2Proof.Machine.execReqDpW0 s
  | .reqDpW4 => Sys2Proof.Machine.execReqDpW4 s
  | .reqDpW8 => Sys2Proof.Machine.execReqDpW8 s
  | .reqDpWC => Sys2Proof.Machine.execReqDpWC s
  | .reqDpR0 => Sys2Proof.Machine.execReqDpR0 s
  | .reqDpR4 => Sys2Proof.Machine.execReqDpR4 s
  | .reqDpR8 => Sys2Proof.Machine.execReqDpR8 s
  | .reqDpRC => Sys2Proof.Machine.execReqDpRC s
  | .reqApW0 => Sys2Proof.Machine.execReqApW0 s
  | .reqApW4 => Sys2Proof.Machine.execReqApW4 s
  | .reqApW8 => Sys2Proof.Machine.execReqApW8 s
  | .reqApWC => Sys2Proof.Machine.execReqApWC s
  | .reqApR0 => Sys2Proof.Machine.execReqApR0 s
  | .reqApR4 => Sys2Proof.Machine.execReqApR4 s
  | .reqApR8 => Sys2Proof.Machine.execReqApR8 s
  | .reqApRC => Sys2Proof.Machine.execReqApRC s
  | .req apndp rnw a32 => Sys2Proof.Machine.execReq apndp rnw a32 s
  | .ackOk => Sys2Proof.Machine.execAckOk s
  | .ackWait => Sys2Proof.Machine.execAckWait s
  | .ackFault => Sys2Proof.Machine.execAckFault s
  | .ackUndecodable000 => Sys2Proof.Machine.execAckUndecodable000 s
  | .ackUndecodable011 => Sys2Proof.Machine.execAckUndecodable011 s
  | .ackUndecodable101 => Sys2Proof.Machine.execAckUndecodable101 s
  | .ackUndecodable110 => Sys2Proof.Machine.execAckUndecodable110 s
  | .ackUndecodable111 => Sys2Proof.Machine.execAckUndecodable111 s
  | .wdata value => Sys2Proof.Machine.execWdata value s
  | .rdata value parity turnaround => Sys2Proof.Machine.execRdata value parity turnaround s
  | .lineReset => Sys2Proof.Machine.execLineReset s
  | .jtagToSwd => Sys2Proof.Machine.execJtagToSwd s
  | .idle8 => Sys2Proof.Machine.execIdle8 s

end Sys2Proof.Machine
end

