-- ==== Sys2Proof/Machine/Fetch.lean ====
section
/-! DEFINITION. Where the next operation comes from. Idle, it is the command the host presents (spec/30_encoding.md R95);
inside a command, the sequencer's phase gives the frame to drive, or the bits sampled from the wire are the frame
(spec/40_swd_transport.md R115, R123). Beside it: the block's reset (spec/70_reset_and_hazards.md R270) and the placing
of an operation where the next step takes it. -/

namespace Sys2Proof.Machine

/-- The bits of a fixed sequence. -/
def lineFrame (par : Params) : LineSeq → Frame
  | .lineReset => .lineReset (lineResetBits par)
  | .jtagToSwd => .jtagToSwd (jtagToSwdBits par)
  | .idle8 => .idle8 (idle8Bits par)

/-- The next operation's words and the state once they are taken; nothing if the block is idle and no command is
presented. An acknowledgement is four sampled bits, the turnaround dropped (R75, R114); a read packet is 34 (R78). -/
def fetch (s : State) : Option (Frame × State) :=
  match s.seq with
  | .idle =>
    match s.cmds with
    | [] => none
    | c :: rest => some (.cmd c.cmd c.addr c.wdata, { s with cmds := rest })
  | .busy _ (.line l) => some (lineFrame s.par l, s)
  | .busy _ (.issue t) => some (.sendRequest (requestWord t.apndp t.rnw t.a32), s)
  | .busy _ (.q1 t _) => some (.req (requestWord t.apndp t.rnw t.a32), s)
  | .busy _ (.q2 _ _) =>
    let sampled := sampleBits 4 s
    some (.ack (val 3 (sampled.1.drop 1)), sampled.2)
  | .busy _ (.data t) =>
    if t.rnw then
      let sampled := sampleBits 34 s
      some (.rdata (val 34 sampled.1), sampled.2)
    else some (.wdata (wdataWord t.wdata), s)

/-- Words that are no operation: a command is answered IllegalCommand (R99, R241); the block makes no others (R101). -/
def rejected (f : Frame) (s : State) : Host.Outcome State Fault Refusal :=
  match f with
  | .cmd _ _ _ => .next (complete .illegalCommand s)
  | .sendRequest _ | .req _ | .ack _ | .wdata _ | .rdata _ => .fault .strayFrame
  | .lineReset _ | .jtagToSwd _ | .idle8 _ => .fault .strayFrame

/-- One operation: it is taken, decoded and run; with nothing to do the block waits for a command (R270). -/
def operate (s : State) : Host.Outcome State Fault Refusal :=
  match fetch s with
  | none => .next s
  | some (f, s1) =>
    match decode s.par f with
    | .ok i => exec i s1
    | .error _ => rejected f s1

/-- The block's reset: a command in progress is abandoned without a response and without a wire event, and every part of
the block takes its reset value (R33, R270). What lies outside the block stays: the commands the host still presents, the
responses it has taken, the answers of the environment, the reset input, and the parameters (log entry 4). -/
def blockReset (s : State) : State :=
  { State.reset with
    cmds := s.cmds
    rsps := s.rsps
    wireIn := s.wireIn
    freeUsed := s.freeUsed
    resetIn := s.resetIn
    par := s.par }

/-- One step: the reset input is looked at first. -/
def advance (s : State) : Host.Outcome State Fault Refusal :=
  match s.resetIn with
  | [] => operate s
  | false :: rest => operate { s with resetIn := rest }
  | true :: rest => .next (blockReset { s with resetIn := rest })

/-- The port command whose access a wire frame belongs to when it is placed by hand: every request frame can be issued by
READPORT or WRITEPORT (R73). -/
def portAccess (a r : Bool) (a32 : BitVec 2) (v : Word) : Access :=
  let reg : BitVec 8 := 0#4 ++ a32 ++ 0#2
  match a, r with
  | false, true => .dpRead reg
  | false, false => .dpWrite reg v
  | true, true => .apRead 0#8 reg
  | true, false => .apWrite 0#8 reg v

/-- The sequencer stands in a port command's transaction with the given operands, at the given phase of it. -/
def inPort (a r : Bool) (a32 : BitVec 2) (v : Word) (phase : Tx → Phase) (s : State) : State :=
  goto (.port (portAccess a r a32 v)) (phase (accessTx (portAccess a r a32 v))) s

/-- The code that stands, under the parameters `par`, for the acknowledgement row of a table word (the table's words are
those of the values in R6). -/
def ackUnder (par : Params) (w : BitVec 3) : BitVec 3 :=
  match encode par (decodeAckCode Config.defaultParams w) with
  | .ack c => c
  | _ => w

/-- `s` with a frame placed where the next step takes it: a command on the command port of the idle block; a frame the
block drives, at the sequencer's step that drives it; a frame the block samples, as the environment's next bits, with the
sequencer at the step that samples them. -/
def placeFrame (f : Frame) (s : State) : State :=
  let s := { s with resetIn := [] }
  match f with
  | .cmd c a w => { s with seq := .idle, cmds := ⟨c, a, w⟩ :: s.cmds }
  | .sendRequest w => inPort (w.getLsbD 1) (w.getLsbD 2) (w.extractLsb' 3 2) 0#32 .issue s
  | .req w => inPort (w.getLsbD 1) (w.getLsbD 2) (w.extractLsb' 3 2) 0#32 (fun t => .q1 t 1) s
  | .ack w =>
    inPort false true 0#2 0#32 (fun t => .q2 t 1) { s with wireIn := false :: (lsbf (ackUnder s.par w) ++ s.wireIn) }
  | .wdata w => inPort false false 0#2 (w.extractLsb' 1 32) .data s
  | .rdata w => inPort false true 0#2 0#32 .data { s with wireIn := lsbf w ++ s.wireIn }
  | .lineReset _ => goto .c1 (.line .lineReset) s
  | .jtagToSwd _ => goto .c2Switch (.line .jtagToSwd) s
  | .idle8 _ => goto .c2Idle (.line .idle8) s

end Sys2Proof.Machine
end

