-- ==== Sys2Proof/Machine/Step.lean ====
section
/-! DEFINITION. One step of the block, and a word of the opcode table placed where the next step takes it. -/

namespace Sys2Proof.Machine

/-- One step (Machine/Fetch.lean). -/
def step (s : State) : Host.Outcome State Fault Refusal := advance s

/-- `s` with the operation of a word of the opcode table placed where `step` takes its next one (log entry 5). -/
def State.withFetchWord (s : State) (nbits w : Nat) : State :=
  match tableFrame nbits w with
  | some f => placeFrame f s
  | none => s

end Sys2Proof.Machine
end

