-- ==== Sys2Proof/Safety.lean ====
section
/-! DEFINITION. The terms claims are stated in: the invariant of a run, and the wire layouts of spec/30_encoding.md R83 as
answers the environment may give and events the trace then holds. -/

namespace Sys2Proof.Safety
open Sys2Proof.Machine

/-- The session states in which a step may stand (spec/43_debug_session.md R200, R203). -/
def stepSession : Pos → Session → Bool
  | .c1, x | .c2Switch, x | .c2Reset, x | .c2Idle, x | .c3, x => x == .connecting
  | .c4, x | .c5, x | .c6, x | .u1, x | .u2, x | .u3 _, x => x == .synced
  | .n1, x | .n2, x | .n3, x | .n4, x => x == .poweredUp
  | .m2 _, x | .m3 _, x | .m4 _, x | .port _, x => x == .ready
  | .disc .command, x | .disc .reset, x => x == .ready
  | .disc (.connectFailed _), x => x == .connecting || x == .synced || x == .poweredUp

/-- Between commands only Disconnected and Ready occur (R10); inside one, the session is that of the step. -/
def seqSession : Sequencer → Session → Bool
  | .idle, x => x == .disconnected || x == .ready
  | .busy p _, x => stepSession p x

/-- What each session state says of the rest of the block (R200, R205). -/
def sessionOk (s : State) : Prop :=
  match s.sess with
  | .disconnected => s.sel = none ∧ s.width = none ∧ s.idcode = none ∧ s.linkOpen = false
  | .connecting => s.sel = none ∧ s.width = none ∧ s.idcode = none ∧ s.linkOpen = true
  | .synced => s.sel = none ∧ s.width = none ∧ s.idcode ≠ none ∧ s.linkOpen = true
  | .poweredUp => s.width = none ∧ s.idcode ≠ none ∧ s.linkOpen = true
  | .ready => s.width ≠ none ∧ s.idcode ≠ none ∧ s.linkOpen = true

/-- The bank an access needs selected; a DP access needs none (R42, R144). -/
def accessBank : Access → Option Bank
  | .dpRead _ | .dpWrite _ _ => none
  | .apRead ap reg => some (bankOf ap reg)
  | .apWrite ap reg _ => some (bankOf ap reg)

/-- The access writes DP.SELECT directly (R143). -/
def writesSelect : Access → Bool
  | .dpWrite off _ => off == dpSelect.addr
  | .dpRead _ | .apRead _ _ | .apWrite _ _ _ => false

/-- A transaction is one that the step's access `a` may have on the wire while the cache holds `sel`: the access itself,
an AP access only with its bank in the cache (R42, R145) and a direct SELECT write only with the cache empty (R143); the
SELECT write for its bank, with the cache empty (R146); or the ABORT write after a FAULT (R150). -/
def txOf (a : Access) (sel : Option Bank) (t : Tx) : Prop :=
  match t.role with
  | .access =>
    t = accessTx a ∧ (∀ b, accessBank a = some b → sel = some b) ∧ (writesSelect a = true → sel = none)
  | .select b rnw a32 v =>
    t = selectTx b rnw a32 v ∧ sel = none ∧ accessBank a = some b ∧
      accessTx a = ⟨true, rnw, a32, v, .access⟩
  | .clear => t = clearTx

/-- A phase is one that the step's plan allows: its fixed sequence, or a transaction of its access; `attempt` stays within
`WAIT_RETRY_BOUND` (R121). -/
def phaseOk (s : State) (p : Pos) : Phase → Prop
  | .line l => plan s.par p = .line l
  | .issue t | .data t => ∃ a, plan s.par p = .access a ∧ txOf a s.sel t
  | .q1 t n | .q2 t n =>
    (∃ a, plan s.par p = .access a ∧ txOf a s.sel t) ∧ 1 ≤ n ∧ n ≤ s.par.waitRetryBound

/-- `polls` stays below `POWERUP_POLL_BOUND` while a poll read is under way (R187). -/
def pollsOk (par : Params) : Pos → Prop
  | .u3 n => ∀ m, par.powerupPollBound = some m → n < m
  | _ => True

/-- The sequencer's position is one the step table allows. -/
def seqOk (s : State) : Prop :=
  match s.seq with
  | .idle => True
  | .busy p ph => phaseOk s p ph ∧ pollsOk s.par p

/-- The STATUS values of R232. -/
def statusLegal (x : BitVec 8) : Bool :=
  [0x00#8, 0x01#8, 0x02#8, 0x03#8, 0x04#8, 0x15#8, 0x25#8, 0x35#8, 0x45#8, 0x65#8, 0x07#8, 0x08#8, 0x09#8].contains x

/-- The result latches: a status of R232, and no data beside an error (R16). -/
def latchesOk (s : State) : Prop :=
  statusLegal s.status = true ∧ (s.status ≠ 0x00#8 → s.rdata = 0#32)

/-- The invariant of a run: the session, the position, the wire phase and the latches agree with each other. The bound of
R187 counts at least one read (R6), so the first poll is always admitted. -/
structure RunInvariant (s : State) : Prop where
  params : s.par.wf
  session : sessionOk s
  position : seqSession s.seq s.sess = true
  wire : seqOk s
  latches : latchesOk s

/-- `k` steps of the machine. -/
def steps (k : Nat) (s : State) : Host.Outcome State Fault Refusal := Host.Core.run Sys2Proof.core k s

/-- An acknowledgement as the environment answers it: a turnaround bit and the code (R75). -/
def ackBits (trn : Bool) (code : BitVec 3) : List Bool := trn :: lsbf code

/-- A read packet with good parity as the environment answers it (R78, R79). -/
def packetBits (v : Word) (trn : Bool) : List Bool := lsbf v ++ [parity32 v, trn]

/-- An OK acknowledgement and a good read packet: what answers a read (R83). -/
def readAnswer (par : Params) (trn : Bool) (v : Word) (trn' : Bool) : List Bool :=
  ackBits trn par.ackOk ++ packetBits v trn'

/-- Driven bits, as events. -/
def drives (bits : List Bool) : List Event := bits.map Event.drive

/-- Sampled bits, as events. -/
def samples (bits : List Bool) : List Event := bits.map Event.sample

/-- The events of a write transaction answered OK at once (R83). -/
def writeEvents (par : Params) (apndp : Bool) (a32 : BitVec 2) (v : Word) (trn : Bool) : List Event :=
  drives (reqFrame apndp false a32) ++ samples (ackBits trn par.ackOk) ++
    drives (wdataBits v ++ zeros par.postWriteIdle)

/-- The events of a read transaction answered OK at once with `v` (R83). -/
def readEvents (par : Params) (apndp : Bool) (a32 : BitVec 2) (trn : Bool) (v : Word) (trn' : Bool) : List Event :=
  drives (reqFrame apndp true a32) ++ samples (ackBits trn par.ackOk) ++ samples (packetBits v trn')

/-- The state after a command has completed (R16, R95, R100): the latches and the response, and the block idle. -/
def answered (status : BitVec 8) (rdata : Word) (s : State) : State :=
  { s with status := status, rdata := rdata, rsps := s.rsps ++ [⟨status, rdata⟩], seq := .idle }

/-- The block after a disconnect sequence: the line reset and the BitLink close are in the trace, and the session is
Disconnected with both caches and the IDCODE latch empty (R206). -/
def disconnected (s : State) : State :=
  { s with
    trace := s.trace ++ drives (ones s.par.nLineReset) ++ [Event.linkDisconnect]
    linkOpen := false
    sess := .disconnected
    sel := none
    width := none
    idcode := none }

/-- The code is none of OK, WAIT and FAULT (R76). -/
def undecodable (par : Params) (c : BitVec 3) : Prop := c ≠ par.ackOk ∧ c ≠ par.ackWait ∧ c ≠ par.ackFault

/-- WAIT answers with attempts left: each a turnaround bit, the code, and the turnaround bit read before the frame is sent
again (R118). -/
def waitAnswers (par : Params) (l : List (Bool × Bool)) : List Bool :=
  l.flatMap fun w => ackBits w.1 par.ackWait ++ [w.2]

/-- The events of attempts that were answered WAIT and are followed by another (R83). -/
def waitEvents (par : Params) (apndp rnw : Bool) (a32 : BitVec 2) (l : List (Bool × Bool)) : List Event :=
  l.flatMap fun w =>
    drives (reqFrame apndp rnw a32) ++ samples (ackBits w.1 par.ackWait) ++ samples [w.2]

/-- CTRLSTAT poll reads: the turnaround before the ack, the word and the turnaround after it, in order. -/
def pollAnswers (par : Params) (l : List (Bool × Word × Bool)) : List Bool :=
  l.flatMap fun q => readAnswer par q.1 q.2.1 q.2.2

/-- The events of poll reads (R185). -/
def pollEvents (par : Params) (l : List (Bool × Word × Bool)) : List Event :=
  l.flatMap fun q => readEvents par false 1#2 q.1 q.2.1 q.2.2

/-- The next `n` bits the environment supplies: the listed answers, then its free bits (R7; log entry 3). -/
def supplied (n : Nat) (s : State) : List Bool :=
  s.wireIn.take n ++ (List.range (n - s.wireIn.length)).map fun k => Config.freeSample (s.freeUsed + k)

/-- The state after those `n` bits have been sampled. -/
def afterSampling (n : Nat) (s : State) : State :=
  { s with
    wireIn := s.wireIn.drop n
    freeUsed := s.freeUsed + (n - s.wireIn.length)
    trace := s.trace ++ samples (supplied n s) }

/-- STATUS of an error that ends a Ready command (R232). -/
def errorStatus : OpError → BitVec 8
  | .busy => 0x01#8
  | .fault => 0x02#8
  | .noAck => 0x03#8
  | .parity => 0x04#8
  | .powerUpTimeout => 0x06#8

/-- STATUS of `ConnectError(cause)` (R232, R236). -/
def connectErrorStatus : OpError → BitVec 8
  | .busy => 0x15#8
  | .fault => 0x25#8
  | .noAck => 0x35#8
  | .parity => 0x45#8
  | .powerUpTimeout => 0x65#8

/-- An error has been raised at a step: a step of CONNECT goes on with the line reset of the disconnect sequence (R204);
any other command is answered with the error (R245). -/
def erred (p : Pos) (e : OpError) (s : State) : State :=
  if inConnect p then { s with seq := .busy (.disc (.connectFailed e)) (.line .lineReset) }
  else answered (errorStatus e) 0#32 s

/-- A request frame has been driven: an attempt that was at step Q1 awaits its acknowledgement (R115). -/
def requested (bits : List Bool) (s : State) : State :=
  { s with
    trace := s.trace ++ drives bits
    seq := match s.seq with
      | .busy p (.q1 t n) => .busy p (.q2 t n)
      | other => other }

/-- A command word is illegal (R99): a reserved bit is set, OP is 0x8 to 0xF, a port command names a register that is not a
multiple of 4, or a DP port command one above 0xC. -/
def illegalWord (c : Word) : Prop :=
  c.getLsbD 7 = true ∨ c.extractLsb' 24 8 ≠ 0#8 ∨ 8 ≤ (c.extractLsb' 0 4).toNat ∨
    ((c.extractLsb' 0 4 = 6#4 ∨ c.extractLsb' 0 4 = 7#4) ∧
      (c.extractLsb' 8 2 ≠ 0#2 ∨ (c.getLsbD 6 = false ∧ c.extractLsb' 12 4 ≠ 0#4)))

end Sys2Proof.Safety
end

