-- ==== Sys2Proof/Certificates/Slice0/Obligations.lean ====
section
/-! DEFINITION. The statements for the provers. A statement about a run takes the environment's answers from `wireIn` and
the turnaround bits among them as any bits; the parameters are those of the state, so a statement holds for all of them.
Where a statement counts steps, the count is the grain the model chose (log entry 1); the spec counts wire events, which
the trace gives. -/

open Sys2Proof Sys2Proof.Machine Sys2Proof.Safety

/-! ## Reset and the invariant -/

/-- R6, R33, R270: what the block holds after its reset, and the parameters with the values R6 gives (the poll bound, which R6
leaves open, is the model's choice: log entry 2). -/
def Obligations.ResetStateIsDisconnectedAndEmpty : Prop :=
  State.reset.sess = .disconnected ∧ State.reset.sel = none ∧ State.reset.width = none ∧
    State.reset.idcode = none ∧ State.reset.rdata = 0#32 ∧ State.reset.status = 0x00#8 ∧
    State.reset.trace = [] ∧ State.reset.linkOpen = false ∧ State.reset.seq = .idle ∧
    State.reset.par.waitRetryBound = 3 ∧ State.reset.par.memapIndex = 0#8 ∧ State.reset.par.cswFixed = 0#32 ∧
    State.reset.par.ackErrTrn = 0 ∧ State.reset.par.postWriteIdle = 0 ∧ State.reset.par.nLineReset = 56 ∧
    State.reset.par.nIdleAfterSwitch = 8 ∧ State.reset.par.switchSeq = 0xE79E#16 ∧
    State.reset.par.ackOk = 0b001#3 ∧ State.reset.par.ackWait = 0b010#3 ∧ State.reset.par.ackFault = 0b100#3

/-- The invariant holds after reset. -/
def Obligations.ResetMeetsRunInvariant : Prop := RunInvariant State.reset

/-- Every step from a state that meets the invariant leads to one that does: R10, R16, R42, R121, R143, R146, R187, R200,
R205, R232 hold of every state of a run. -/
def Obligations.StepKeepsRunInvariant : Prop :=
  ∀ s t : State, RunInvariant s → step s = .next t → RunInvariant t

/-- R270: the reset input abandons whatever executes; nothing is driven and no response is given. The inputs still
presented, the responses given and the parameters are outside the block (log entry 4). -/
def Obligations.BlockResetAbandonsTheCommand : Prop :=
  ∀ (s : State) (rest : List Bool), s.resetIn = true :: rest →
    step s = .next { State.reset with
      cmds := s.cmds, rsps := s.rsps, wireIn := s.wireIn, freeUsed := s.freeUsed, resetIn := rest, par := s.par }

/-! ## Encodings -/

/-- Decoding what the encoder writes gives the operation back, for every well-formed operation and all acknowledgement codes
that differ from each other. -/
def Obligations.DecodeOfEncodeIsTheOperation : Prop :=
  ∀ (par : Params) (i : Instr), par.distinctAcks → WellFormed i → decode par (encode par i) = .ok i

/-- Whatever decodes is well formed: no ill-formed operand comes out of the decoder. -/
def Obligations.DecodedOperationsAreWellFormed : Prop :=
  ∀ (par : Params) (f : Frame) (i : Instr), decode par f = .ok i → WellFormed i

/-- On the wire each word has one meaning: what decodes is written back as it was. -/
def Obligations.WireWordsHaveOneMeaning : Prop :=
  ∀ (par : Params) (f : Frame) (i : Instr), par.distinctAcks → (∀ c a w, f ≠ .cmd c a w) →
    decode par f = .ok i → encode par i = f

/-- R99: a command word is rejected exactly when it is illegal. -/
def Obligations.CommandRejectedExactlyWhenIllegal : Prop :=
  ∀ (par : Params) (c addr wdata : Word), (∃ e, decode par (.cmd c addr wdata) = .error e) ↔ illegalWord c

/-- Words of the command table, the request table, the acknowledgement table and the fixed sequences, with the parameters'
values of R6 (R73, R75, R80, R81, R96, R97). -/
def Obligations.TableWordsDecode : Prop :=
  let dec := decode Config.defaultParams
  dec (.cmd 0x00000000#32 0#32 0#32) = .ok .connect ∧
    dec (.cmd 0x00000024#32 0x20000000#32 0#32) = .ok (.readmem .w32 0x20000000#32) ∧
    dec (.cmd 0x00000015#32 0x00001002#32 0x0000ABCD#32) = .ok (.writemem .w16 0x00001002#32 0x0000ABCD#32) ∧
    dec (.cmd 0x00000C06#32 0#32 0#32) = .ok (.readportDp 0x0C#8) ∧
    dec (.cmd 0x0023FC46#32 0#32 0#32) = .ok (.readportAp 0x23#8 0xFC#8) ∧
    dec (.cmd 0x00000447#32 0#32 0x20000000#32) = .ok (.writeportAp 0x00#8 0x04#8 0x20000000#32) ∧
    dec (.req 0xB1#8) = .ok .reqDpW8 ∧ dec (.req 0xAF#8) = .ok .reqApR4 ∧
    dec (.ack 0b010#3) = .ok .ackWait ∧ dec (.ack 0b110#3) = .ok .ackUndecodable110 ∧
    dec (.lineReset (lsbf 0xFFFFFFFFFFFFFF#56)) = .ok .lineReset ∧
    dec (.jtagToSwd (lsbf 0xE79E#16)) = .ok .jtagToSwd ∧ dec (.idle8 (lsbf 0x00#8)) = .ok .idle8

/-- R113: the request frame, bit by bit, for all sixteen operand combinations, each of which is a legal request. -/
def Obligations.RequestFrameLayout : Prop :=
  ∀ (par : Params) (a r : Bool) (x : BitVec 2),
    reqFrame a r x = [true, a, r, x.getLsbD 0, x.getLsbD 1,
      a ^^ (r ^^ (x.getLsbD 0 ^^ x.getLsbD 1)), false, true] ∧
    lsbf (requestWord a r x) = reqFrame a r x ∧ ∃ i, decode par (.req (requestWord a r x)) = .ok i

/-- R110: a receiver that recomputes the parity accepts exactly the packets whose 33 bits hold an even number of ones. -/
def Obligations.ParityAcceptsExactlyEvenPackets : Prop :=
  ∀ (v : Word) (p : Bool), parity32 v = p ↔ (lsbf v ++ [p]).count true % 2 = 0

/-- R44, R112: bit 0 goes first, and reversing or reassembling loses nothing. -/
def Obligations.BitOrderLosesNothing : Prop :=
  (∀ (n : Nat) (v : BitVec n), val n (lsbf v) = v ∧ lsbf v = bitrev (msbf v)) ∧
    (∀ l : List Bool, lsbf (val l.length l) = l ∧ bitrev (bitrev l) = l)

/-! ## What one step runs -/

/-- The idle block takes the first command presented to it and runs the operation its words stand for; the reset input is
consumed beside it. -/
def Obligations.StepRunsThePresentedCommand : Prop :=
  ∀ (s : State) (c : Command) (rest : List Command) (i : Instr),
    s.seq = .idle → s.cmds = c :: rest → decode s.par (.cmd c.cmd c.addr c.wdata) = .ok i →
      (s.resetIn = [] → step s = exec i { s with cmds := rest }) ∧
      (∀ r, s.resetIn = false :: r → step s = exec i { s with cmds := rest, resetIn := r })

/-- Inside a command the step runs the operation of the frame the sequencer drives, or of the bits it samples: four for an
acknowledgement, the first of them a turnaround, and 34 for a read packet (R75, R78, R115). -/
def Obligations.StepRunsTheWireFrame : Prop :=
  ∀ (s : State) (p : Pos) (t : Tx) (n : Nat), s.resetIn = [] →
    (s.seq = .busy p (.line .lineReset) → step s = exec .lineReset s) ∧
    (s.seq = .busy p (.line .jtagToSwd) → step s = exec .jtagToSwd s) ∧
    (s.seq = .busy p (.line .idle8) → step s = exec .idle8 s) ∧
    (s.seq = .busy p (.issue t) → step s = exec (.req t.apndp t.rnw t.a32) s) ∧
    (s.seq = .busy p (.q1 t n) → step s = exec (requestRow t.apndp t.rnw t.a32) s) ∧
    (∀ b c rest, s.seq = .busy p (.q2 t n) → s.wireIn = ackBits b c ++ rest →
      step s = exec (decodeAckCode s.par c)
        { s with wireIn := rest, trace := s.trace ++ samples (ackBits b c) }) ∧
    (s.seq = .busy p (.data t) → t.rnw = false → step s = exec (.wdata t.wdata) s) ∧
    (∀ v q b rest, s.seq = .busy p (.data t) → t.rnw = true → s.wireIn = lsbf v ++ [q, b] ++ rest →
      step s = exec (.rdata v q b)
        { s with wireIn := rest, trace := s.trace ++ samples (lsbf v ++ [q, b]) })

/-- R7: every bit sampled is the environment's: the next listed answer or, past the list, its next free bit, whatever that
is. So it is for the four bits of an acknowledgement, the 34 of a read packet, the turnaround before a frame is sent again,
and the `ACK_ERR_TRN` bits after an acknowledgement that ends the transaction. -/
def Obligations.SampledBitsAreFree : Prop :=
  ∀ (s : State) (p : Pos) (t : Tx) (n : Nat), s.resetIn = [] →
    (s.seq = .busy p (.data t) → t.rnw = true →
      step s = exec (.rdata (val 32 ((supplied 34 s).take 32)) ((supplied 34 s).getD 32 false)
        ((supplied 34 s).getD 33 false)) (afterSampling 34 s)) ∧
    (s.seq = .busy p (.q2 t n) →
      step s = exec (decodeAckCode s.par (val 3 ((supplied 4 s).drop 1))) (afterSampling 4 s) ∧
      (n < s.par.waitRetryBound →
        exec .ackWait s = .next { afterSampling 1 s with seq := .busy p (.q1 t (n + 1)) }) ∧
      (t.role ≠ .clear →
        (s.par.waitRetryBound ≤ n →
          exec .ackWait s = .next (erred p .busy (afterSampling s.par.ackErrTrn.val s))) ∧
        exec .ackFault s = .next { afterSampling s.par.ackErrTrn.val s with
          seq := .busy p (.issue ⟨false, false, 0#2, 0x00000004#32, .clear⟩) } ∧
        (∀ c, undecodable s.par c →
          exec (decodeAckCode s.par c) s = .next (erred p .noAck (afterSampling s.par.ackErrTrn.val s)))))

/-- R270: after reset, and between commands, the block waits for a command and changes nothing. -/
def Obligations.IdleBlockWaits : Prop :=
  ∀ s : State, s.resetIn = [] → s.seq = .idle → s.cmds = [] → step s = .next s

/-- No step of the machine faults or is refused: every error is an outcome of a command. -/
def Obligations.EveryStepAnswersANextState : Prop := ∀ s : State, ∃ t, step s = .next t

/-- R99, R100, R241: an illegal command completes at once with STATUS 0x09 and RDATA 0, without any wire event and with no
other change than the latches and its response. -/
def Obligations.IllegalCommandChangesOnlyLatches : Prop :=
  ∀ (s : State) (c : Command) (rest : List Command),
    s.resetIn = [] → s.seq = .idle → s.cmds = c :: rest → illegalWord c.cmd →
      step s = .next (answered 0x09#8 0#32 { s with cmds := rest })

/-! ## Commands -/

/-- R202, R239: CONNECT outside Disconnected, and the memory and port commands outside Ready, complete with AlreadyConnected
(0x08) or NotReady (0x07); they change the result latches alone. -/
def Obligations.RefusedCommandsChangeOnlyLatches : Prop :=
  ∀ s : State, s.seq = .idle →
    (s.sess ≠ .disconnected → exec .connect s = .next (answered 0x08#8 0#32 s)) ∧
    (s.sess ≠ .ready →
      (∀ w a, exec (.readmem w a) s = .next (answered 0x07#8 0#32 s)) ∧
      (∀ w a v, exec (.writemem w a v) s = .next (answered 0x07#8 0#32 s)) ∧
      (∀ r, WellFormed (.readportDp r) → exec (.readportDp r) s = .next (answered 0x07#8 0#32 s)) ∧
      (∀ k r, WellFormed (.readportAp k r) → exec (.readportAp k r) s = .next (answered 0x07#8 0#32 s)) ∧
      (∀ r v, WellFormed (.writeportDp r v) → exec (.writeportDp r v) s = .next (answered 0x07#8 0#32 s)) ∧
      (∀ k r v, WellFormed (.writeportAp k r v) → exec (.writeportAp k r v) s = .next (answered 0x07#8 0#32 s)))

/-- R203, with the powerUp of R185 and the negotiateWidth of R180: CONNECT from Disconnected, every transaction answered
OK, the first poll read with both power-up acks, and the CSW read-back holding the 8-bit size code: the ten transactions
in order after the 136 bits of the preamble, then Ready with width 8, the IDCODE latched and the cache at the MEM-AP's
bank 0. Nothing else changes. The 44 steps are the grain of log entry 1. -/
def Obligations.ConnectReachesReadyWithWidth8 : Prop :=
  ∀ (s : State) (id poll csw : Word) (t u : Nat → Bool) (rest : List Bool),
    s.seq = .idle → s.sess = .disconnected → s.resetIn = [] → s.par.powerupPollBound ≠ some 0 →
    poll.getLsbD 31 = true → poll.getLsbD 29 = true → csw.extractLsb' 0 3 = 0b000#3 →
    s.wireIn = readAnswer s.par (t 1) id (u 1) ++ ackBits (t 2) s.par.ackOk ++ ackBits (t 3) s.par.ackOk ++
      ackBits (t 4) s.par.ackOk ++ ackBits (t 5) s.par.ackOk ++ ackBits (t 6) s.par.ackOk ++
      readAnswer s.par (t 7) poll (u 7) ++ ackBits (t 8) s.par.ackOk ++ ackBits (t 9) s.par.ackOk ++
      readAnswer s.par (t 10) csw (u 10) ++ rest →
    ∃ s0, exec .connect s = .next s0 ∧
      steps 44 s0 = .next (answered 0x00#8 0#32 { s with
        sess := .ready
        sel := some ⟨s.par.memapIndex, 0#4⟩
        width := some .w8
        idcode := some id
        linkOpen := true
        wireIn := rest
        trace := s.trace ++ [Event.linkConnect] ++ drives (ones s.par.nLineReset) ++ drives (lsbf s.par.switchSeq) ++
          drives (ones s.par.nLineReset) ++ drives (zeros s.par.nIdleAfterSwitch) ++
          readEvents s.par false 0#2 (t 1) id (u 1) ++ writeEvents s.par false 0#2 0x0000001F#32 (t 2) ++
          writeEvents s.par false 1#2 0x00000F00#32 (t 3) ++ writeEvents s.par false 2#2 0x00000000#32 (t 4) ++
          writeEvents s.par false 2#2 0x00000000#32 (t 5) ++ writeEvents s.par false 1#2 0x50000F00#32 (t 6) ++
          readEvents s.par false 1#2 (t 7) poll (u 7) ++
          writeEvents s.par false 2#2 (selectWord ⟨s.par.memapIndex, 0#4⟩) (t 8) ++
          writeEvents s.par true 0#2 (cswValue s.par .w8) (t 9) ++ readEvents s.par true 0#2 (t 10) csw (u 10) })

/-- R180, R182, R183: from the SELECT write of step N1, with which negotiateWidth begins (PollEndsOnBothAckBits ends there), a
read-back whose bits 2:0 are not the 8-bit code leads to the 16-bit probe; width 16 if that holds, width 32 if not, with no
third CSW write. The 20 steps are the grain of log entry 1. -/
def Obligations.NegotiationFallsBackTo16And32 : Prop :=
  ∀ (s : State) (c8 c16 : Word) (t u : Nat → Bool) (rest : List Bool),
    s.seq = .busy .n1 (.issue ⟨false, false, 2#2, selectWord ⟨s.par.memapIndex, 0#4⟩,
      .select ⟨s.par.memapIndex, 0#4⟩ false 0#2 (cswValue s.par .w8)⟩) →
    s.resetIn = [] → c8.extractLsb' 0 3 ≠ 0b000#3 →
    s.wireIn = ackBits (t 0) s.par.ackOk ++ ackBits (t 1) s.par.ackOk ++ readAnswer s.par (t 2) c8 (u 2) ++
      ackBits (t 3) s.par.ackOk ++ readAnswer s.par (t 4) c16 (u 4) ++ rest →
    steps 20 s = .next (answered 0x00#8 0#32 { s with
      sess := .ready
      sel := some ⟨s.par.memapIndex, 0#4⟩
      width := some (if c16.extractLsb' 0 3 = 0b001#3 then .w16 else .w32)
      wireIn := rest
      trace := s.trace ++ writeEvents s.par false 2#2 (selectWord ⟨s.par.memapIndex, 0#4⟩) (t 0) ++
        writeEvents s.par true 0#2 (cswValue s.par .w8) (t 1) ++
        readEvents s.par true 0#2 (t 2) c8 (u 2) ++ writeEvents s.par true 0#2 (cswValue s.par .w16) (t 3) ++
        readEvents s.par true 0#2 (t 4) c16 (u 4) })

/-- R206, R208, R209: DISCONNECT drives one line reset, closes BitLink and empties the session state; in Disconnected it
does nothing on the wire. -/
def Obligations.DisconnectClosesTheSession : Prop :=
  ∀ s : State, s.seq = .idle → s.resetIn = [] →
    (s.sess ≠ .disconnected → ∃ s0, exec .disconnect s = .next s0 ∧
      step s0 = .next (answered 0x00#8 0#32 (disconnected s))) ∧
    (s.sess = .disconnected → exec .disconnect s = .next (answered 0x00#8 0#32 s))

/-- R210: RESET is DISCONNECT's sequence, then CONNECT as from Disconnected; in Disconnected it is CONNECT. -/
def Obligations.ResetIsDisconnectThenConnect : Prop :=
  ∀ s : State, s.seq = .idle → s.resetIn = [] →
    (s.sess ≠ .disconnected → ∃ s0, exec .reset s = .next s0 ∧ step s0 = exec .connect (disconnected s)) ∧
    (s.sess = .disconnected → exec .reset s = exec .connect s)

/-- R202, R203: CONNECT in Disconnected, and RESET there, open BitLink and stand at step C1. -/
def Obligations.ConnectOpensTheLink : Prop :=
  ∀ s : State, s.seq = .idle → s.sess = .disconnected →
    exec .connect s = .next { s with
      sess := .connecting
      linkOpen := true
      trace := s.trace ++ [Event.linkConnect]
      seq := .busy .c1 (.line .lineReset) } ∧
    exec .reset s = exec .connect s

/-- R212: INVALIDATE empties the SelectCache and answers Ok, in every session state; nothing else changes. -/
def Obligations.InvalidateEmptiesOnlyTheSelectCache : Prop :=
  ∀ s : State, s.seq = .idle → exec .invalidate s = .next (answered 0x00#8 0#32 { s with sel := none })

/-- R98, R172: the width a memory command uses: what the decoder reads from the WIDTH codes 0 to 3, in a command word too, and
the width each of them stands for. -/
def Obligations.WidthCodesDecode : Prop :=
  (decodeWidthCode 0#2 = .w8 ∧ decodeWidthCode 1#2 = .w16 ∧ decodeWidthCode 2#2 = .w32 ∧
    decodeWidthCode 3#2 = .session) ∧
  (∀ (par : Params) (addr wdata : Word),
    decode par (.cmd 0x00000004#32 addr wdata) = .ok (.readmem .w8 addr) ∧
    decode par (.cmd 0x00000014#32 addr wdata) = .ok (.readmem .w16 addr) ∧
    decode par (.cmd 0x00000024#32 addr wdata) = .ok (.readmem .w32 addr) ∧
    decode par (.cmd 0x00000034#32 addr wdata) = .ok (.readmem .session addr) ∧
    decode par (.cmd 0x00000005#32 addr wdata) = .ok (.writemem .w8 addr wdata) ∧
    decode par (.cmd 0x00000015#32 addr wdata) = .ok (.writemem .w16 addr wdata) ∧
    decode par (.cmd 0x00000025#32 addr wdata) = .ok (.writemem .w32 addr wdata) ∧
    decode par (.cmd 0x00000035#32 addr wdata) = .ok (.writemem .session addr wdata)) ∧
  ∀ s : State, decodeWidth .w8 s = .w8 ∧ decodeWidth .w16 s = .w16 ∧ decodeWidth .w32 s = .w32 ∧
    (∀ w, s.width = some w → decodeWidth .session s = w)

/-- R174, R175, R177: WRITEMEM in Ready, every transaction answered OK: SELECT if the cache misses, then CSW, TAR and DRW,
the datum masked and moved to its lane. Nothing else changes but the cache, the latches and the response. The 12 and 16
steps are the grain of log entry 1. -/
def Obligations.WritememWritesCswTarDrw : Prop :=
  ∀ (s : State) (code : WidthCode) (addr value : Word) (t : Nat → Bool) (rest : List Bool),
    s.seq = .idle → s.sess = .ready → s.resetIn = [] →
    (s.sel = some ⟨s.par.memapIndex, 0#4⟩ →
      s.wireIn = ackBits (t 1) s.par.ackOk ++ ackBits (t 2) s.par.ackOk ++ ackBits (t 3) s.par.ackOk ++ rest →
      ∃ s0, exec (.writemem code addr value) s = .next s0 ∧
        steps 12 s0 = .next (answered 0x00#8 0#32 { s with
          wireIn := rest
          trace := s.trace ++ writeEvents s.par true 0#2 (cswValue s.par (decodeWidth code s)) (t 1) ++
            writeEvents s.par true 1#2 addr (t 2) ++
            writeEvents s.par true 3#2 (drwWord (decodeWidth code s) addr value) (t 3) })) ∧
    (s.sel ≠ some ⟨s.par.memapIndex, 0#4⟩ →
      s.wireIn = ackBits (t 0) s.par.ackOk ++ ackBits (t 1) s.par.ackOk ++ ackBits (t 2) s.par.ackOk ++
        ackBits (t 3) s.par.ackOk ++ rest →
      ∃ s0, exec (.writemem code addr value) s = .next s0 ∧
        steps 16 s0 = .next (answered 0x00#8 0#32 { s with
          sel := some ⟨s.par.memapIndex, 0#4⟩
          wireIn := rest
          trace := s.trace ++ writeEvents s.par false 2#2 (selectWord ⟨s.par.memapIndex, 0#4⟩) (t 0) ++
            writeEvents s.par true 0#2 (cswValue s.par (decodeWidth code s)) (t 1) ++
            writeEvents s.par true 1#2 addr (t 2) ++
            writeEvents s.par true 3#2 (drwWord (decodeWidth code s) addr value) (t 3) }))

/-- R175 to R177: READMEM in Ready, every transaction answered OK: SELECT if the cache misses, then CSW, TAR and the DRW
read, whose lane is the result. The 12 and 16 steps are the grain of log entry 1. -/
def Obligations.ReadmemReadsThroughDrw : Prop :=
  ∀ (s : State) (code : WidthCode) (addr drw : Word) (t : Nat → Bool) (u : Bool) (rest : List Bool),
    s.seq = .idle → s.sess = .ready → s.resetIn = [] →
    (s.sel = some ⟨s.par.memapIndex, 0#4⟩ →
      s.wireIn = ackBits (t 1) s.par.ackOk ++ ackBits (t 2) s.par.ackOk ++ readAnswer s.par (t 3) drw u ++ rest →
      ∃ s0, exec (.readmem code addr) s = .next s0 ∧
        steps 12 s0 = .next (answered 0x00#8 (laneOf (decodeWidth code s) addr drw) { s with
          wireIn := rest
          trace := s.trace ++ writeEvents s.par true 0#2 (cswValue s.par (decodeWidth code s)) (t 1) ++
            writeEvents s.par true 1#2 addr (t 2) ++ readEvents s.par true 3#2 (t 3) drw u })) ∧
    (s.sel ≠ some ⟨s.par.memapIndex, 0#4⟩ →
      s.wireIn = ackBits (t 0) s.par.ackOk ++ ackBits (t 1) s.par.ackOk ++ ackBits (t 2) s.par.ackOk ++
        readAnswer s.par (t 3) drw u ++ rest →
      ∃ s0, exec (.readmem code addr) s = .next s0 ∧
        steps 16 s0 = .next (answered 0x00#8 (laneOf (decodeWidth code s) addr drw) { s with
          sel := some ⟨s.par.memapIndex, 0#4⟩
          wireIn := rest
          trace := s.trace ++ writeEvents s.par false 2#2 (selectWord ⟨s.par.memapIndex, 0#4⟩) (t 0) ++
            writeEvents s.par true 0#2 (cswValue s.par (decodeWidth code s)) (t 1) ++
            writeEvents s.par true 1#2 addr (t 2) ++ readEvents s.par true 3#2 (t 3) drw u }))

/-- R141, R142, R152: READPORT of a DP register in Ready is one read transaction; its word is the result. -/
def Obligations.ReadportDpIsOneTransaction : Prop :=
  ∀ (s : State) (reg : BitVec 8) (v : Word) (t u : Bool) (rest : List Bool),
    s.seq = .idle → s.sess = .ready → s.resetIn = [] → WellFormed (.readportDp reg) →
    s.wireIn = readAnswer s.par t v u ++ rest →
    ∃ s0, exec (.readportDp reg) s = .next s0 ∧
      steps 4 s0 = .next (answered 0x00#8 v { s with
        wireIn := rest
        trace := s.trace ++ readEvents s.par false (reg.extractLsb' 2 2) t v u })

/-- R141 to R143, R153: WRITEPORT of a DP register in Ready is one write transaction; offset 0x8 (SELECT) empties the
cache, any other leaves it. -/
def Obligations.WriteportDpIsOneTransaction : Prop :=
  ∀ (s : State) (reg : BitVec 8) (v : Word) (t : Bool) (rest : List Bool),
    s.seq = .idle → s.sess = .ready → s.resetIn = [] → WellFormed (.writeportDp reg v) →
    s.wireIn = ackBits t s.par.ackOk ++ rest →
    ∃ s0, exec (.writeportDp reg v) s = .next s0 ∧
      steps 4 s0 = .next (answered 0x00#8 0#32 { s with
        sel := if reg = 0x08#8 then none else s.sel
        wireIn := rest
        trace := s.trace ++ writeEvents s.par false (reg.extractLsb' 2 2) v t })

/-- R144 to R146, R148, R152: READPORT of an AP register in Ready: one read transaction if the cache holds its bank, a SELECT
write before it if not; its word is the result. -/
def Obligations.ReadportApSelectsThenReads : Prop :=
  ∀ (s : State) (ap reg : BitVec 8) (v : Word) (t0 t u : Bool) (rest : List Bool),
    s.seq = .idle → s.sess = .ready → s.resetIn = [] → WellFormed (.readportAp ap reg) →
    (s.sel = some ⟨ap, reg.extractLsb' 4 4⟩ → s.wireIn = readAnswer s.par t v u ++ rest →
      ∃ s0, exec (.readportAp ap reg) s = .next s0 ∧
        steps 4 s0 = .next (answered 0x00#8 v { s with
          wireIn := rest
          trace := s.trace ++ readEvents s.par true (reg.extractLsb' 2 2) t v u })) ∧
    (s.sel ≠ some ⟨ap, reg.extractLsb' 4 4⟩ →
      s.wireIn = ackBits t0 s.par.ackOk ++ readAnswer s.par t v u ++ rest →
      ∃ s0, exec (.readportAp ap reg) s = .next s0 ∧
        steps 8 s0 = .next (answered 0x00#8 v { s with
          sel := some ⟨ap, reg.extractLsb' 4 4⟩
          wireIn := rest
          trace := s.trace ++ writeEvents s.par false 2#2 (selectWord ⟨ap, reg.extractLsb' 4 4⟩) t0 ++
            readEvents s.par true (reg.extractLsb' 2 2) t v u }))

/-- R144 to R146, R149, R153: WRITEPORT of an AP register in Ready, as READPORT with a write. -/
def Obligations.WriteportApSelectsThenWrites : Prop :=
  ∀ (s : State) (ap reg : BitVec 8) (v : Word) (t0 t : Bool) (rest : List Bool),
    s.seq = .idle → s.sess = .ready → s.resetIn = [] → WellFormed (.writeportAp ap reg v) →
    (s.sel = some ⟨ap, reg.extractLsb' 4 4⟩ → s.wireIn = ackBits t s.par.ackOk ++ rest →
      ∃ s0, exec (.writeportAp ap reg v) s = .next s0 ∧
        steps 4 s0 = .next (answered 0x00#8 0#32 { s with
          wireIn := rest
          trace := s.trace ++ writeEvents s.par true (reg.extractLsb' 2 2) v t })) ∧
    (s.sel ≠ some ⟨ap, reg.extractLsb' 4 4⟩ →
      s.wireIn = ackBits t0 s.par.ackOk ++ ackBits t s.par.ackOk ++ rest →
      ∃ s0, exec (.writeportAp ap reg v) s = .next s0 ∧
        steps 8 s0 = .next (answered 0x00#8 0#32 { s with
          sel := some ⟨ap, reg.extractLsb' 4 4⟩
          wireIn := rest
          trace := s.trace ++ writeEvents s.par false 2#2 (selectWord ⟨ap, reg.extractLsb' 4 4⟩) t0 ++
            writeEvents s.par true (reg.extractLsb' 2 2) v t }))

/-- R57: the accesses (AP0, bank 0), (AP0, bank 0), (AP0, bank 1), (AP0, bank 0) from an empty cache make three SELECT
writes, before the first, the third and the fourth. The 32 steps are the grain of log entry 1. -/
def Obligations.FourAccessesMakeThreeSelectWrites : Prop :=
  ∀ (s : State) (v1 v2 v3 v4 : Word) (t u : Nat → Bool) (rest : List Bool) (later : List Command),
    s.seq = .idle → s.sess = .ready → s.resetIn = [] → s.sel = none →
    s.cmds = [⟨0x00000046#32, 0#32, 0#32⟩, ⟨0x00000446#32, 0#32, 0#32⟩, ⟨0x00001046#32, 0#32, 0#32⟩,
      ⟨0x00000C46#32, 0#32, 0#32⟩] ++ later →
    s.wireIn = ackBits (t 0) s.par.ackOk ++ readAnswer s.par (t 1) v1 (u 1) ++ readAnswer s.par (t 2) v2 (u 2) ++
      ackBits (t 3) s.par.ackOk ++ readAnswer s.par (t 4) v3 (u 4) ++
      ackBits (t 5) s.par.ackOk ++ readAnswer s.par (t 6) v4 (u 6) ++ rest →
    steps 32 s = .next { s with
      cmds := later
      sel := some ⟨0x00#8, 0#4⟩
      rdata := v4
      status := 0x00#8
      rsps := s.rsps ++ [⟨0x00#8, v1⟩, ⟨0x00#8, v2⟩, ⟨0x00#8, v3⟩, ⟨0x00#8, v4⟩]
      wireIn := rest
      trace := s.trace ++ writeEvents s.par false 2#2 0x00000000#32 (t 0) ++ readEvents s.par true 0#2 (t 1) v1 (u 1) ++
        readEvents s.par true 1#2 (t 2) v2 (u 2) ++
        writeEvents s.par false 2#2 0x00000010#32 (t 3) ++ readEvents s.par true 0#2 (t 4) v3 (u 4) ++
        writeEvents s.par false 2#2 0x00000000#32 (t 5) ++ readEvents s.par true 3#2 (t 6) v4 (u 6) }

/-! ## The wire rows -/

/-- R73: each request row drives its eight bits, and an attempt that was to send it awaits the acknowledgement; nothing
else changes, in any state. -/
def Obligations.RequestRowsDriveTheirFrames : Prop :=
  ∀ s : State,
    exec .reqDpW0 s = .next (requested [true, false, false, false, false, false, false, true] s) ∧
    exec .reqDpW4 s = .next (requested [true, false, false, true, false, true, false, true] s) ∧
    exec .reqDpW8 s = .next (requested [true, false, false, false, true, true, false, true] s) ∧
    exec .reqDpWC s = .next (requested [true, false, false, true, true, false, false, true] s) ∧
    exec .reqDpR0 s = .next (requested [true, false, true, false, false, true, false, true] s) ∧
    exec .reqDpR4 s = .next (requested [true, false, true, true, false, false, false, true] s) ∧
    exec .reqDpR8 s = .next (requested [true, false, true, false, true, false, false, true] s) ∧
    exec .reqDpRC s = .next (requested [true, false, true, true, true, true, false, true] s) ∧
    exec .reqApW0 s = .next (requested [true, true, false, false, false, true, false, true] s) ∧
    exec .reqApW4 s = .next (requested [true, true, false, true, false, false, false, true] s) ∧
    exec .reqApW8 s = .next (requested [true, true, false, false, true, false, false, true] s) ∧
    exec .reqApWC s = .next (requested [true, true, false, true, true, true, false, true] s) ∧
    exec .reqApR0 s = .next (requested [true, true, true, false, false, false, false, true] s) ∧
    exec .reqApR4 s = .next (requested [true, true, true, true, false, true, false, true] s) ∧
    exec .reqApR8 s = .next (requested [true, true, true, false, true, true, false, true] s) ∧
    exec .reqApRC s = .next (requested [true, true, true, true, true, false, false, true] s)

/-- R115: the call of sendRequest sets `attempt` to 1 and stands at Q1 with its operands; nothing is driven yet. -/
def Obligations.SendRequestStartsItsFirstAttempt : Prop :=
  ∀ (s : State) (p : Pos) (t : Tx) (a r : Bool) (x : BitVec 2), s.seq = .busy p (.issue t) →
    exec (.req a r x) s =
      .next { s with seq := .busy p (.q1 { t with apndp := a, rnw := r, a32 := x } 1) }

/-- R116: after an OK acknowledgement the data phase is next, and nothing more is driven or sampled. -/
def Obligations.AckOkLeadsToTheDataPhase : Prop :=
  ∀ (s : State) (p : Pos) (t : Tx) (n : Nat), s.seq = .busy p (.q2 t n) →
    exec .ackOk s = .next { s with seq := .busy p (.data t) }

/-- R118: a WAIT with attempts left samples one turnaround bit and stands at Q1 again with the same transaction and the next
attempt. -/
def Obligations.AckWaitRetriesWithinTheBound : Prop :=
  ∀ (s : State) (p : Pos) (t : Tx) (n : Nat) (b : Bool) (rest : List Bool),
    s.seq = .busy p (.q2 t n) → n < s.par.waitRetryBound → s.wireIn = b :: rest →
    exec .ackWait s = .next { s with
      seq := .busy p (.q1 t (n + 1)), wireIn := rest, trace := s.trace ++ samples [b] }

/-- R119, R235, R204: a WAIT on the last attempt raises BusyError after `ACK_ERR_TRN` sampled bits: it ends a Ready command
(0x01), and in a step of CONNECT the disconnect sequence is next; no ABORT is written. -/
def Obligations.AckWaitOnTheLastAttemptIsBusy : Prop :=
  ∀ (s : State) (p : Pos) (t : Tx) (n : Nat) (e rest : List Bool),
    s.seq = .busy p (.q2 t n) → s.par.waitRetryBound ≤ n → t.role ≠ .clear →
    e.length = s.par.ackErrTrn.val → s.wireIn = e ++ rest →
    exec .ackWait s = .next (erred p .busy { s with wireIn := rest, trace := s.trace ++ samples e })

/-- R117, R140: a FAULT on a transaction other than the ABORT write is followed by one ABORT write with STKERRCLR alone,
after `ACK_ERR_TRN` sampled bits; the faulted transaction is given up. -/
def Obligations.AckFaultLeadsToOneAbortWrite : Prop :=
  ∀ (s : State) (p : Pos) (t : Tx) (n : Nat) (e rest : List Bool),
    s.seq = .busy p (.q2 t n) → t.role ≠ .clear →
    e.length = s.par.ackErrTrn.val → s.wireIn = e ++ rest →
    exec .ackFault s = .next { s with
      seq := .busy p (.issue ⟨false, false, 0#2, 0x00000004#32, .clear⟩)
      wireIn := rest
      trace := s.trace ++ samples e }

/-- R120, R233, R204: an undecodable acknowledgement raises NoAck after `ACK_ERR_TRN` sampled bits, for each of the five
patterns: it ends a Ready command (0x03), and in a step of CONNECT the disconnect sequence is next. -/
def Obligations.UndecodableAcksAreNoAck : Prop :=
  ∀ (s : State) (p : Pos) (t : Tx) (n : Nat) (e rest : List Bool) (i : Instr),
    (i = .ackUndecodable000 ∨ i = .ackUndecodable011 ∨ i = .ackUndecodable101 ∨ i = .ackUndecodable110 ∨
      i = .ackUndecodable111) →
    s.seq = .busy p (.q2 t n) → t.role ≠ .clear → e.length = s.par.ackErrTrn.val → s.wireIn = e ++ rest →
    exec i s = .next (erred p .noAck { s with wireIn := rest, trace := s.trace ++ samples e })

/-- R122, R129, R146, R153: a write packet drives turnaround 0, the data bit 0 first, the parity and the idle bits; then a
port write, to a DP or an AP register, completes Ok; or the cache commits the bank whose SELECT write this was and the
waiting AP transfer is next. -/
def Obligations.WdataDrivesThePacketAndReturns : Prop :=
  ∀ (s : State) (p : Pos) (t : Tx) (v : Word), s.seq = .busy p (.data t) → t.rnw = false →
    ((∃ off w, p = .port (.dpWrite off w)) ∨ (∃ ap reg w, p = .port (.apWrite ap reg w)) → t.role = .access →
      exec (.wdata v) s = .next (answered 0x00#8 0#32 { s with
        trace := s.trace ++ drives ([false] ++ lsbf v ++ [parity32 v] ++ zeros s.par.postWriteIdle) })) ∧
    (∀ b r x w, t.role = .select b r x w →
      exec (.wdata v) s = .next { s with
        sel := some b
        seq := .busy p (.issue ⟨true, r, x, w, .access⟩)
        trace := s.trace ++ drives ([false] ++ lsbf v ++ [parity32 v] ++ zeros s.par.postWriteIdle) })

/-- R123, R124, R152, R178, R204, R234: a read packet with good parity completes a port read with its word; with bad parity the
word is dropped and ParityError is raised whichever step reads: it ends a Ready command, a port read or a READMEM (0x04), and
in a step of CONNECT the disconnect sequence is next. The turnaround bit decides nothing. -/
def Obligations.RdataIsCheckedBeforeItIsReturned : Prop :=
  ∀ (s : State) (p : Pos) (t : Tx) (v : Word) (q b : Bool), s.seq = .busy p (.data t) → t.rnw = true →
    t.role = .access →
    (parity32 v = q → ((∃ off, p = .port (.dpRead off)) ∨ (∃ ap reg, p = .port (.apRead ap reg))) →
      exec (.rdata v q b) s = .next (answered 0x00#8 v s)) ∧
    (parity32 v ≠ q → exec (.rdata v q b) s = .next (erred p .parity s))

/-- R80 to R82, R125, R126, R203: steps C1 and C2 drive `N_LINE_RESET` ones (56), the JTAG-to-SWD sequence, the ones again and
`N_IDLE_AFTER_SWITCH` zeros (8), and the IDCODE read is next. -/
def Obligations.LineSequencesOfConnect : Prop :=
  ∀ s : State,
    (s.seq = .busy .c1 (.line .lineReset) → exec .lineReset s = .next { s with
      trace := s.trace ++ drives (List.replicate s.par.nLineReset true), seq := .busy .c2Switch (.line .jtagToSwd) }) ∧
    (s.seq = .busy .c2Switch (.line .jtagToSwd) → exec .jtagToSwd s = .next { s with
      trace := s.trace ++ drives (lsbf s.par.switchSeq)
      seq := .busy .c2Reset (.line .lineReset) }) ∧
    (s.seq = .busy .c2Reset (.line .lineReset) → exec .lineReset s = .next { s with
      trace := s.trace ++ drives (List.replicate s.par.nLineReset true), seq := .busy .c2Idle (.line .idle8) }) ∧
    (s.seq = .busy .c2Idle (.line .idle8) → exec .idle8 s = .next { s with
      trace := s.trace ++ drives (List.replicate s.par.nIdleAfterSwitch false)
      seq := .busy .c3 (.issue ⟨false, true, 0#2, 0#32, .access⟩) }) ∧
    (s.par.switchSeq = 0xE79E#16 → lsbf s.par.switchSeq = [false, true, true, true, true, false, false, true,
      true, true, true, false, false, true, true, true])

/-- The model's choice (log entry 6): the spec says only that the host cannot issue the wire rows by themselves (R104) and that
a command is accepted by the idle block alone (R95). Taken by the idle block, a wire row that the block drives drives its
bits, the other wire rows do nothing, and nothing else changes; taken by a busy block, a command changes nothing. -/
def Obligations.RowsOutOfPlaceGoNoFurther : Prop :=
  ∀ s : State,
    (s.seq = .idle →
      exec .lineReset s = .next { s with trace := s.trace ++ drives (ones s.par.nLineReset) } ∧
      exec .jtagToSwd s = .next { s with trace := s.trace ++ drives (lsbf s.par.switchSeq) } ∧
      exec .idle8 s = .next { s with trace := s.trace ++ drives (zeros s.par.nIdleAfterSwitch) } ∧
      (∀ v, exec (.wdata v) s =
        .next { s with trace := s.trace ++ drives (wdataBits v ++ zeros s.par.postWriteIdle) }) ∧
      (∀ v q b, exec (.rdata v q b) s = .next s) ∧ (∀ a r x, exec (.req a r x) s = .next s) ∧
      (∀ c, exec (decodeAckCode s.par c) s = .next s)) ∧
    (s.seq ≠ .idle →
      exec .connect s = .next s ∧ exec .disconnect s = .next s ∧ exec .reset s = .next s ∧
      exec .invalidate s = .next s ∧ (∀ w a, exec (.readmem w a) s = .next s) ∧
      (∀ w a v, exec (.writemem w a v) s = .next s) ∧ (∀ r, exec (.readportDp r) s = .next s) ∧
      (∀ k r, exec (.readportAp k r) s = .next s) ∧ (∀ r v, exec (.writeportDp r v) s = .next s) ∧
      (∀ k r v, exec (.writeportAp k r v) s = .next s))

/-! ## Errors and recovery -/

/-- R121: with bound B, WAIT answered k times and then OK lets `sendRequest` return when k < B, after k + 1 frames; B WAITs
raise BusyError after exactly B frames, in a Ready command and in a step of CONNECT alike. The counts of steps are the grain
of log entry 1. -/
def Obligations.WaitRetryBoundLaw : Prop :=
  ∀ (s : State) (p : Pos) (t : Tx) (l : List (Bool × Bool)) (b : Bool) (rest : List Bool),
    s.seq = .busy p (.issue t) → s.resetIn = [] → s.par.ackWait ≠ s.par.ackOk →
    (l.length < s.par.waitRetryBound →
      s.wireIn = waitAnswers s.par l ++ ackBits b s.par.ackOk ++ rest →
      steps (2 * l.length + 3) s = .next { s with
        seq := .busy p (.data t)
        wireIn := rest
        trace := s.trace ++ waitEvents s.par t.apndp t.rnw t.a32 l ++ drives (reqFrame t.apndp t.rnw t.a32) ++
          samples (ackBits b s.par.ackOk) }) ∧
    (∀ e, l.length + 1 = s.par.waitRetryBound → t.role ≠ .clear → e.length = s.par.ackErrTrn.val →
      s.wireIn = waitAnswers s.par l ++ ackBits b s.par.ackWait ++ e ++ rest →
      steps (2 * l.length + 3) s = .next (erred p .busy { s with
        wireIn := rest
        trace := s.trace ++ waitEvents s.par t.apndp t.rnw t.a32 l ++ drives (reqFrame t.apndp t.rnw t.a32) ++
          samples (ackBits b s.par.ackWait) ++ samples e }))

/-- R140, R150, R204, R245: a FAULT is followed by the ABORT write of 0x00000004, and then FaultError is raised: a Ready command
completes with it (0x02), the session and the cache as they were, and in a step of CONNECT the disconnect sequence is next.
The 5 steps are the grain of log entry 1. -/
def Obligations.FaultIsClearedThenReported : Prop :=
  ∀ (s : State) (p : Pos) (t : Tx) (n : Nat) (f b : Bool) (e rest : List Bool),
    s.seq = .busy p (.q2 t n) → s.resetIn = [] → s.par.distinctAcks → t.role ≠ .clear →
    e.length = s.par.ackErrTrn.val →
    s.wireIn = ackBits f s.par.ackFault ++ e ++ ackBits b s.par.ackOk ++ rest →
    steps 5 s = .next (erred p .fault { s with
      wireIn := rest
      trace := s.trace ++ samples (ackBits f s.par.ackFault) ++ samples e ++
        writeEvents s.par false 0#2 0x00000004#32 b })

/-- R150, R204, R248: an ABORT write that is itself answered FAULT, a last WAIT or not at all is not repeated; the FaultError it
followed is raised, in a Ready command and in a step of CONNECT alike. -/
def Obligations.FailedAbortWriteIsNotRepeated : Prop :=
  ∀ (s : State) (p : Pos) (n : Nat) (b : Bool) (c : BitVec 3) (e rest : List Bool),
    s.seq = .busy p (.q2 clearTx n) → s.resetIn = [] →
    c ≠ s.par.ackOk → (c = s.par.ackWait → s.par.waitRetryBound ≤ n) →
    e.length = s.par.ackErrTrn.val → s.wireIn = ackBits b c ++ e ++ rest →
    step s = .next (erred p .fault { s with
      wireIn := rest, trace := s.trace ++ samples (ackBits b c) ++ samples e })

/-- R147, R178: a SELECT write that fails leaves the cache empty, and neither the AP access of a port command nor the CSW write
of a memory command is issued. The failures are an undecodable acknowledgement (NoAck), WAIT on every attempt (BusyError), and
FAULT, after which the ABORT write is issued once, whether or not it is itself acknowledged (FaultError). The counts of steps
are the grain of log entry 1. -/
def Obligations.FailedSelectEmptiesTheCache : Prop :=
  ∀ (s : State) (ap reg : BitVec 8) (code : WidthCode) (addr v : Word) (i : Instr) (bank : Bank) (b : Bool)
    (e rest : List Bool),
    s.seq = .idle → s.sess = .ready → s.resetIn = [] → s.par.distinctAcks → WellFormed i →
    ((i = .readportAp ap reg ∨ i = .writeportAp ap reg v) ∧ bank = ⟨ap, reg.extractLsb' 4 4⟩ ∨
      (i = .readmem code addr ∨ i = .writemem code addr v) ∧ bank = ⟨s.par.memapIndex, 0#4⟩) →
    s.sel ≠ some bank → e.length = s.par.ackErrTrn.val →
    ∃ s0, exec i s = .next s0 ∧
      (∀ c, undecodable s.par c → s.wireIn = ackBits b c ++ e ++ rest →
        steps 3 s0 = .next (answered 0x03#8 0#32 { s with
          sel := none
          wireIn := rest
          trace := s.trace ++ drives (reqFrame false false 2#2) ++ samples (ackBits b c) ++ samples e })) ∧
      (∀ l, l.length + 1 = s.par.waitRetryBound →
        s.wireIn = waitAnswers s.par l ++ ackBits b s.par.ackWait ++ e ++ rest →
        steps (2 * l.length + 3) s0 = .next (answered 0x01#8 0#32 { s with
          sel := none
          wireIn := rest
          trace := s.trace ++ waitEvents s.par false false 2#2 l ++ drives (reqFrame false false 2#2) ++
            samples (ackBits b s.par.ackWait) ++ samples e })) ∧
      (∀ b', s.wireIn = ackBits b s.par.ackFault ++ e ++ ackBits b' s.par.ackOk ++ rest →
        steps 7 s0 = .next (answered 0x02#8 0#32 { s with
          sel := none
          wireIn := rest
          trace := s.trace ++ drives (reqFrame false false 2#2) ++ samples (ackBits b s.par.ackFault) ++ samples e ++
            writeEvents s.par false 0#2 0x00000004#32 b' })) ∧
      (∀ b' c e', c ≠ s.par.ackOk → (c = s.par.ackWait → s.par.waitRetryBound ≤ 1) →
        e'.length = s.par.ackErrTrn.val →
        s.wireIn = ackBits b s.par.ackFault ++ e ++ ackBits b' c ++ e' ++ rest →
        steps 6 s0 = .next (answered 0x02#8 0#32 { s with
          sel := none
          wireIn := rest
          trace := s.trace ++ drives (reqFrame false false 2#2) ++ samples (ackBits b s.par.ackFault) ++ samples e ++
            drives (reqFrame false false 0#2) ++ samples (ackBits b' c) ++ samples e' }))

/-- R204, R206, R232, R236, R245, R248: an error raised in a step of CONNECT runs the disconnect sequence and completes with
ConnectError and its cause; the session is Disconnected and holds nothing. First for each error as raised; then from the wire:
an undecodable acknowledgement, a WAIT on the last attempt, a FAULT with its ABORT write, an ABORT write that fails, and a read
packet with bad parity. (PowerUpTimeout: PollRepeatsUntilItsBound.) The counts of steps are the grain of log entry 1. -/
def Obligations.ConnectErrorsEndDisconnected : Prop :=
  ∀ (s : State) (p : Pos), inConnect p = true → s.resetIn = [] →
    (∀ e, step (raise p e s) = .next (answered (connectErrorStatus e) 0#32 (disconnected s))) ∧
    (∀ (t : Tx) (n : Nat) (b : Bool) (c : BitVec 3) (e rest : List Bool),
      s.seq = .busy p (.q2 t n) → t.role ≠ .clear → e.length = s.par.ackErrTrn.val → undecodable s.par c →
      s.wireIn = ackBits b c ++ e ++ rest →
      steps 2 s = .next (answered 0x35#8 0#32 (disconnected { s with
        wireIn := rest, trace := s.trace ++ samples (ackBits b c) ++ samples e }))) ∧
    (∀ (t : Tx) (n : Nat) (b : Bool) (e rest : List Bool),
      s.seq = .busy p (.q2 t n) → t.role ≠ .clear → e.length = s.par.ackErrTrn.val →
      s.par.ackWait ≠ s.par.ackOk → s.par.waitRetryBound ≤ n →
      s.wireIn = ackBits b s.par.ackWait ++ e ++ rest →
      steps 2 s = .next (answered 0x15#8 0#32 (disconnected { s with
        wireIn := rest, trace := s.trace ++ samples (ackBits b s.par.ackWait) ++ samples e }))) ∧
    (∀ (t : Tx) (n : Nat) (f b : Bool) (e rest : List Bool),
      s.seq = .busy p (.q2 t n) → t.role ≠ .clear → e.length = s.par.ackErrTrn.val → s.par.distinctAcks →
      s.wireIn = ackBits f s.par.ackFault ++ e ++ ackBits b s.par.ackOk ++ rest →
      steps 6 s = .next (answered 0x25#8 0#32 (disconnected { s with
        wireIn := rest
        trace := s.trace ++ samples (ackBits f s.par.ackFault) ++ samples e ++
          writeEvents s.par false 0#2 0x00000004#32 b }))) ∧
    (∀ (n : Nat) (b : Bool) (c : BitVec 3) (e rest : List Bool),
      s.seq = .busy p (.q2 clearTx n) → e.length = s.par.ackErrTrn.val →
      c ≠ s.par.ackOk → (c = s.par.ackWait → s.par.waitRetryBound ≤ n) →
      s.wireIn = ackBits b c ++ e ++ rest →
      steps 2 s = .next (answered 0x25#8 0#32 (disconnected { s with
        wireIn := rest, trace := s.trace ++ samples (ackBits b c) ++ samples e }))) ∧
    (∀ (t : Tx) (v : Word) (q b : Bool) (rest : List Bool),
      s.seq = .busy p (.data t) → t.rnw = true → t.role = .access → parity32 v ≠ q →
      s.wireIn = lsbf v ++ [q, b] ++ rest →
      steps 2 s = .next (answered 0x45#8 0#32 (disconnected { s with
        wireIn := rest, trace := s.trace ++ samples (lsbf v ++ [q, b]) })))

/-- R185 to R187: a poll read without both ack bits is followed by the next poll read, or, where it was the last the bound
allows, by the disconnect sequence and ConnectError(PowerUpTimeout). -/
def Obligations.PollRepeatsUntilItsBound : Prop :=
  ∀ (s : State) (n : Nat) (v : Word) (b b' : Bool) (rest : List Bool),
    s.seq = .busy (.u3 n) (.issue ⟨false, true, 1#2, 0#32, .access⟩) → s.resetIn = [] →
    ¬ (v.getLsbD 31 = true ∧ v.getLsbD 29 = true) → s.wireIn = readAnswer s.par b v b' ++ rest →
    (s.par.powerupPollBound ≠ some (n + 1) →
      steps 4 s = .next { s with
        seq := .busy (.u3 (n + 1)) (.issue ⟨false, true, 1#2, 0#32, .access⟩)
        wireIn := rest
        trace := s.trace ++ readEvents s.par false 1#2 b v b' }) ∧
    (s.par.powerupPollBound = some (n + 1) →
      steps 5 s = .next (answered 0x65#8 0#32 (disconnected { s with
        wireIn := rest
        trace := s.trace ++ readEvents s.par false 1#2 b v b' })))

/-- R186: both ack bits in one word end the poll, whatever its other bits: the session is PoweredUp and width negotiation
begins with the SELECT write of the MEM-AP's bank, the cache being empty. -/
def Obligations.PollEndsOnBothAckBits : Prop :=
  ∀ (s : State) (n : Nat) (v : Word) (b b' : Bool) (rest : List Bool),
    s.seq = .busy (.u3 n) (.issue ⟨false, true, 1#2, 0#32, .access⟩) → s.resetIn = [] → s.sel = none →
    v.getLsbD 31 = true → v.getLsbD 29 = true → s.wireIn = readAnswer s.par b v b' ++ rest →
    steps 4 s = .next { s with
      sess := .poweredUp
      seq := .busy .n1 (.issue ⟨false, false, 2#2, selectWord ⟨s.par.memapIndex, 0#4⟩,
        .select ⟨s.par.memapIndex, 0#4⟩ false 0#2 (cswValue s.par .w8)⟩)
      wireIn := rest
      trace := s.trace ++ readEvents s.par false 1#2 b v b' }

/-- R284: with no bound, poll reads that never show both bits go on for ever: after any number of them the block still polls,
and the command has not responded. The 4 steps of a poll are the grain of log entry 1. -/
def Obligations.UnboundedPollNeverEnds : Prop :=
  ∀ (s : State) (n : Nat) (l : List (Bool × Word × Bool)) (rest : List Bool),
    s.seq = .busy (.u3 n) (.issue ⟨false, true, 1#2, 0#32, .access⟩) → s.resetIn = [] →
    s.par.powerupPollBound = none → (∀ q ∈ l, ¬ (q.2.1.getLsbD 31 = true ∧ q.2.1.getLsbD 29 = true)) →
    s.wireIn = pollAnswers s.par l ++ rest →
    steps (4 * l.length) s = .next { s with
      seq := .busy (.u3 (n + l.length)) (.issue ⟨false, true, 1#2, 0#32, .access⟩)
      wireIn := rest
      trace := s.trace ++ pollEvents s.par l }

/-! ## Whole-machine rules -/

/-- R201: the transitions of the session state, and no other; the two halves of a RESET from Ready meet in one step. -/
def Obligations.SessionMovesOnlyAsListed : Prop :=
  ∀ s t : State, RunInvariant s → s.resetIn.head? ≠ some true → step s = .next t →
    t.sess = s.sess ∨
    (s.sess = .disconnected ∧ t.sess = .connecting) ∨
    (s.sess = .connecting ∧ t.sess = .synced) ∨
    (s.sess = .synced ∧ t.sess = .poweredUp) ∨
    (s.sess = .poweredUp ∧ t.sess = .ready) ∨
    (s.sess ≠ .disconnected ∧ t.sess = .disconnected ∧ ∃ why, s.seq = .busy (.disc why) (.line .lineReset)) ∨
    (s.sess = .ready ∧ t.sess = .connecting ∧ s.seq = .busy (.disc .reset) (.line .lineReset))

/-- R12, R146, R282: the cache is set to a bank only by the step that drives the data of a SELECT write carrying exactly that
bank; every other change empties it. -/
def Obligations.SelectCacheCommitsOnlyAfterItsWrite : Prop :=
  ∀ s t : State, RunInvariant s → step s = .next t →
    t.sel = s.sel ∨ t.sel = none ∨
    ∃ p tx b, s.seq = .busy p (.data tx) ∧ tx.apndp = false ∧ tx.rnw = false ∧ tx.a32 = 2#2 ∧
      t.sel = some b ∧ t.trace = s.trace ++ drives (wdataBits (selectWord b) ++ zeros s.par.postWriteIdle)

/-- R42, R148: no AP request is on the wire unless the cache holds the access port and bank of the step's access. -/
def Obligations.ApRequestsOnlyUnderTheirBank : Prop :=
  ∀ (s : State) (p : Pos) (t : Tx) (n : Nat), RunInvariant s → s.seq = .busy p (.q1 t n) → t.apndp = true →
    ∃ a b, plan s.par p = .access a ∧ accessBank a = some b ∧ s.sel = some b ∧ t = accessTx a

/-- R25, R51: a step only lengthens the trace; nothing already there is changed or reordered. -/
def Obligations.TraceOnlyGrows : Prop :=
  ∀ s t : State, s.resetIn.head? ≠ some true → step s = .next t → ∃ events, t.trace = s.trace ++ events

/-- R16, R95: exactly one response follows each accepted command. A step that gives no response leaves the latches, and it
leaves the block idle only where the block was idle and no command was presented: a busy block stays busy, and a command that
is taken executes. A step that gives a response gives one, to the command it took or that was executing; the latches then hold
it and the block is idle. A command is taken only by the idle block, one at a time. -/
def Obligations.OneResponsePerCommand : Prop :=
  ∀ s t : State, s.resetIn.head? ≠ some true → step s = .next t →
    ((t.rsps = s.rsps ∧ t.status = s.status ∧ t.rdata = s.rdata ∧
        (t.seq = .idle ↔ s.seq = .idle ∧ s.cmds = [])) ∨
      (∃ r, t.rsps = s.rsps ++ [r] ∧ t.status = r.status ∧ t.rdata = r.rdata ∧ t.seq = .idle ∧
        (s.seq ≠ .idle ∨ s.cmds ≠ []))) ∧
    (s.seq ≠ .idle → t.cmds = s.cmds) ∧ (s.seq = .idle → t.cmds = s.cmds.tail) ∧ t.par = s.par

/-! ## Operand assembly -/

/-- R45, R171, R174, R176, R179: the masks and shifts of the three widths, for every address; the spec's worked case (0x1003,
0xAB); what a read takes from any DRW word: the byte or halfword the address selects, zero-extended, or the whole word, whatever
the other lanes hold; a datum read back from the lane it was written to is the datum masked to its width, and every other lane
of the DRW word of a write is zero. -/
def Obligations.LanesCarryTheMaskedDatum : Prop :=
  (mask .w8 = 0x000000FF#32 ∧ mask .w16 = 0x0000FFFF#32 ∧ mask .w32 = 0xFFFFFFFF#32) ∧
  (∀ addr : Word, shift .w8 addr = 8 * (addr.extractLsb' 0 2).toNat ∧
    shift .w16 addr = 16 * (addr.extractLsb' 1 1).toNat ∧ shift .w32 addr = 0) ∧
  drwWord .w8 0x00001003#32 0x000000AB#32 = 0xAB000000#32 ∧
  (∀ addr drw : Word,
    laneOf .w8 addr drw = (drw.extractLsb' (8 * (addr.extractLsb' 0 2).toNat) 8).zeroExtend 32 ∧
    laneOf .w16 addr drw = (drw.extractLsb' (16 * (addr.extractLsb' 1 1).toNat) 16).zeroExtend 32 ∧
    laneOf .w32 addr drw = drw) ∧
  ∀ (w : Width) (addr v : Word),
    laneOf w addr (drwWord w addr v) = v &&& mask w ∧
    drwWord w addr v &&& ~~~(mask w <<< shift w addr) = 0#32

/-- R27, R144, R146: the SELECT word holds the access port in bits 31:24, the bank in bits 7:4 and zero elsewhere. -/
def Obligations.SelectWordFields : Prop :=
  ∀ b : Bank, (selectWord b).extractLsb' 24 8 = b.ap ∧ (selectWord b).extractLsb' 4 4 = b.bank ∧
    (selectWord b).extractLsb' 8 16 = 0#16 ∧ (selectWord b).extractLsb' 0 4 = 0#4

/-- R29, R173: with the SIZE and increment fields of `CSW_FIXED` zero, the CSW word holds the size code in bits 2:0 (0b000,
0b001, 0b010 for 8, 16, 32 bits), 0b00 in bits 5:4 and `CSW_FIXED` elsewhere. -/
def Obligations.CswWordFields : Prop :=
  ∀ (par : Params) (w : Width), par.wf →
    (cswValue par w).extractLsb' 0 3 = (match w with
      | .w8 => 0b000#3
      | .w16 => 0b001#3
      | .w32 => 0b010#3) ∧
    (cswValue par w).extractLsb' 4 2 = 0b00#2 ∧
    cswValue par w &&& 0xFFFFFFC8#32 = par.cswFixed &&& 0xFFFFFFC8#32
end

