-- ==== Sys2Proof/Laws/Decode.lean ====
section
/-! SUPPORT. The words the sequencer makes are decoded to the operations they were made for, bit sequences and words agree,
and the meaning of a request row is its frame. -/

namespace Sys2Proof.Machine

/-- Taking a word apart bit 0 first and putting it together again gives the word (R8, R44). -/
@[simp] theorem val_lsbf {n : Nat} (v : BitVec n) : val n (lsbf v) = v := by
  ext i hi
  rw [val, ← BitVec.getLsbD_eq_getElem, BitVec.getLsbD_setWidth, BitVec.getLsbD_ofBoolListLE]
  simp [lsbf, hi]

/-- A word has as many bits as its width. -/
@[simp] theorem length_lsbf {n : Nat} (v : BitVec n) : (lsbf v).length = n := by simp [lsbf]

/-- The data, parity and turnaround bits of a sampled packet are the packet's word. -/
theorem val_packet (v : Word) (p t : Bool) : val 34 (lsbf v ++ [p, t]) = rdataWord v p t := by
  ext i hi
  rw [rdataWord, ← BitVec.getLsbD_eq_getElem, ← BitVec.getLsbD_eq_getElem]
  rw [val, BitVec.getLsbD_setWidth, BitVec.getLsbD_ofBoolListLE, BitVec.getLsbD_append]
  by_cases h : i < 32
  · simp [lsbf, h, hi]
  · obtain rfl | rfl : i = 32 ∨ i = 33 := by omega
    · rw [if_neg (by omega), BitVec.getLsbD_append]
      simp [lsbf]
    · rw [if_neg (by omega), BitVec.getLsbD_append]
      simp [lsbf]

@[simp] theorem decode_requestWord (par : Params) (a r : Bool) (x : BitVec 2) :
    decode par (.req (requestWord a r x)) = .ok (requestRow a r x) := by
  simp only [decode]; revert a r x; decide

@[simp] theorem decode_sendRequest (par : Params) (a r : Bool) (x : BitVec 2) :
    decode par (.sendRequest (requestWord a r x)) = .ok (.req a r x) := by
  simp only [decode]; revert a r x; decide

/-- The meaning of each request row is to drive its frame. -/
@[simp] theorem exec_requestRow (a r : Bool) (x : BitVec 2) (s : State) :
    exec (requestRow a r x) s = driveRequest a r x s := by
  have h : ∀ y : BitVec 2, y = 0#2 ∨ y = 1#2 ∨ y = 2#2 ∨ y = 3#2 := by decide
  obtain rfl | rfl | rfl | rfl := h x <;> cases a <;> cases r <;> rfl

/-- The code of each decodable row decodes to it, when it differs from those looked at before it (R75). -/
@[simp] theorem decodeAckCode_ok (par : Params) : decodeAckCode par par.ackOk = .ackOk := by simp [decodeAckCode]

theorem decodeAckCode_wait {par : Params} (h : par.ackWait ≠ par.ackOk) : decodeAckCode par par.ackWait = .ackWait := by
  simp [decodeAckCode, h]

theorem decodeAckCode_fault {par : Params} (h : par.distinctAcks) : decodeAckCode par par.ackFault = .ackFault := by
  simp [decodeAckCode, h.2.1.symm, h.2.2.symm]

/-- Any other pattern decodes to one of the five undecodable rows (R76). -/
theorem decodeAckCode_other {par : Params} {c : BitVec 3} (ho : c ≠ par.ackOk) (hw : c ≠ par.ackWait)
    (hf : c ≠ par.ackFault) :
    decodeAckCode par c = .ackUndecodable000 ∨ decodeAckCode par c = .ackUndecodable011 ∨
      decodeAckCode par c = .ackUndecodable101 ∨ decodeAckCode par c = .ackUndecodable110 ∨
      decodeAckCode par c = .ackUndecodable111 := by
  simp only [decodeAckCode, ho, hw, hf, if_false]
  split <;> simp

/-- Three different codes leave five patterns (R76). -/
theorem undecodableCodes_length {par : Params} (h : par.distinctAcks) : (undecodableCodes par).length = 5 := by
  have all : ∀ a b c : BitVec 3, a ≠ b ∧ a ≠ c ∧ b ≠ c →
      ([0b000#3, 0b001#3, 0b010#3, 0b011#3, 0b100#3, 0b101#3, 0b110#3, 0b111#3].filter fun w =>
        w ≠ a ∧ w ≠ b ∧ w ≠ c).length = 5 := by decide +kernel
  exact all par.ackOk par.ackWait par.ackFault h

/-- They are those that are none of the codes. -/
theorem mem_undecodableCodes {par : Params} {c : BitVec 3} :
    c ∈ undecodableCodes par ↔ c ≠ par.ackOk ∧ c ≠ par.ackWait ∧ c ≠ par.ackFault := by
  have all : ∀ c : BitVec 3, c ∈ [0b000#3, 0b001#3, 0b010#3, 0b011#3, 0b100#3, 0b101#3, 0b110#3, 0b111#3] := by decide
  simp only [undecodableCodes, List.mem_filter, all c, true_and, decide_eq_true_eq]

/-- No pattern stands twice among them. -/
theorem undecodableCodes_nodup (par : Params) : (undecodableCodes par).Nodup :=
  List.Nodup.filter _ (by decide)

/-- The row of each of the five patterns decodes from its place in the list. -/
theorem decode_undecodable {par : Params} (h : par.distinctAcks) (k : Nat) (hk : k < 5) (d : BitVec 3) :
    decodeAckCode par ((undecodableCodes par).getD k d) =
      [Instr.ackUndecodable000, .ackUndecodable011, .ackUndecodable101, .ackUndecodable110, .ackUndecodable111].getD k
        .ackUndecodable000 := by
  have hl := undecodableCodes_length h
  have hm := mem_undecodableCodes.1 (List.getElem_mem (l := undecodableCodes par) (n := k) (by omega))
  have hi := (undecodableCodes_nodup par).idxOf_getElem k (by omega)
  have hg : (undecodableCodes par).getD k d = (undecodableCodes par)[k]'(by omega) := by
    simp [List.getD, hl, hk]
  rw [hg, decodeAckCode, if_neg hm.1, if_neg hm.2.1, if_neg hm.2.2, hi]
  interval_cases k <;> rfl

/-- Every acknowledgement code is that of the row it decodes to. -/
theorem encode_decodeAckCode {par : Params} (h : par.distinctAcks) (c : BitVec 3) :
    encode par (decodeAckCode par c) = .ack c := by
  by_cases ho : c = par.ackOk
  · simp [decodeAckCode, encode, ho]
  by_cases hw : c = par.ackWait
  · simp [decodeAckCode, encode, hw, h.1.symm]
  by_cases hf : c = par.ackFault
  · simp [decodeAckCode, encode, hf, h.2.1.symm, h.2.2.symm]
  obtain ⟨k, hk, rfl⟩ := List.mem_iff_getElem.1 (mem_undecodableCodes.2 ⟨ho, hw, hf⟩)
  have hl := undecodableCodes_length h
  have := decode_undecodable h k (by omega) 0#3
  rw [List.getD_eq_getElem _ _ hk] at this
  rw [this]
  rw [hl] at hk
  interval_cases k <;> simp [encode, hl]

/-- The turnaround of a write packet's word. -/
theorem wdataWord_turnaround (v : Word) : (wdataWord v).getLsbD 0 = false := by
  rw [wdataWord, BitVec.getLsbD_append]; simp

/-- The parity bit of a write packet's word. -/
theorem wdataWord_parity (v : Word) : (wdataWord v).getLsbD 33 = parity32 v := by
  rw [wdataWord, BitVec.getLsbD_append, if_neg (by omega), BitVec.getLsbD_append]; simp

/-- The data bits of a write packet's word. -/
theorem wdataWord_data (v : Word) {i : Nat} (h : i < 32) : (wdataWord v).getLsbD (i + 1) = v.getLsbD i := by
  rw [wdataWord, BitVec.getLsbD_append, if_neg (by omega), BitVec.getLsbD_append, if_pos (by omega)]; simp

@[simp] theorem decode_wdataWord (par : Params) (v : Word) : decode par (.wdata (wdataWord v)) = .ok (.wdata v) := by
  have hv : (wdataWord v).extractLsb' 1 32 = v := by
    ext i hi
    rw [BitVec.getElem_extractLsb', Nat.add_comm, wdataWord_data v hi, BitVec.getLsbD_eq_getElem hi]
  simp only [decode, decodeWdata, hv, wdataWord_turnaround, wdataWord_parity]
  simp

@[simp] theorem decode_rdataWord (par : Params) (v : Word) (p t : Bool) :
    decode par (.rdata (rdataWord v p t)) = .ok (.rdata v p t) := by
  have hp : (rdataWord v p t).getLsbD 32 = p := by
    rw [rdataWord, BitVec.getLsbD_append, if_neg (by omega), BitVec.getLsbD_append]; simp
  have ht : (rdataWord v p t).getLsbD 33 = t := by
    rw [rdataWord, BitVec.getLsbD_append, if_neg (by omega), BitVec.getLsbD_append]; simp
  have hv : (rdataWord v p t).extractLsb' 0 32 = v := by
    ext i hi
    rw [BitVec.getElem_extractLsb', rdataWord, BitVec.getLsbD_append]
    rw [if_pos (by omega), Nat.zero_add, BitVec.getLsbD_eq_getElem hi]
  simp only [decode, decodeRdata, hp, ht, hv]

/-- The bits of a write packet's word are the driven bits (R71, R77). -/
theorem lsbf_wdataWord (v : Word) : lsbf (wdataWord v) = wdataBits v := by
  apply List.ext_getElem
  · simp [wdataBits]
  · intro i h1 h2
    have hi : i < 34 := by simpa using h1
    simp only [lsbf, List.getElem_map, List.getElem_range]
    rcases i with _ | i
    · rw [wdataWord_turnaround]; rfl
    · by_cases h : i < 32
      · rw [wdataWord_data v h]
        simp [wdataBits, lsbf, h]
      · obtain rfl : i = 32 := by omega
        rw [wdataWord_parity]
        simp [wdataBits]

end Sys2Proof.Machine
end

