-- ==== Sys2Proof/Laws/State.lean ====
section
/-! SUPPORT. One lemma per field of the state per operation that writes the state: what the field is afterwards. -/

namespace Sys2Proof.Machine

@[simp] theorem drive_sess (bits : List Bool) (s : State) : (drive bits s).sess = s.sess := rfl
@[simp] theorem drive_sel (bits : List Bool) (s : State) : (drive bits s).sel = s.sel := rfl
@[simp] theorem drive_width (bits : List Bool) (s : State) : (drive bits s).width = s.width := rfl
@[simp] theorem drive_idcode (bits : List Bool) (s : State) : (drive bits s).idcode = s.idcode := rfl
@[simp] theorem drive_rdata (bits : List Bool) (s : State) : (drive bits s).rdata = s.rdata := rfl
@[simp] theorem drive_status (bits : List Bool) (s : State) : (drive bits s).status = s.status := rfl
@[simp] theorem drive_trace (bits : List Bool) (s : State) : (drive bits s).trace = s.trace ++ bits.map Event.drive := rfl
@[simp] theorem drive_linkOpen (bits : List Bool) (s : State) : (drive bits s).linkOpen = s.linkOpen := rfl
@[simp] theorem drive_seq (bits : List Bool) (s : State) : (drive bits s).seq = s.seq := rfl
@[simp] theorem drive_cmds (bits : List Bool) (s : State) : (drive bits s).cmds = s.cmds := rfl
@[simp] theorem drive_rsps (bits : List Bool) (s : State) : (drive bits s).rsps = s.rsps := rfl
@[simp] theorem drive_wireIn (bits : List Bool) (s : State) : (drive bits s).wireIn = s.wireIn := rfl
@[simp] theorem drive_freeUsed (bits : List Bool) (s : State) : (drive bits s).freeUsed = s.freeUsed := rfl
@[simp] theorem drive_resetIn (bits : List Bool) (s : State) : (drive bits s).resetIn = s.resetIn := rfl
@[simp] theorem drive_par (bits : List Bool) (s : State) : (drive bits s).par = s.par := rfl

@[simp] theorem linkConnect_sess (s : State) : (linkConnect s).sess = s.sess := rfl
@[simp] theorem linkConnect_sel (s : State) : (linkConnect s).sel = s.sel := rfl
@[simp] theorem linkConnect_width (s : State) : (linkConnect s).width = s.width := rfl
@[simp] theorem linkConnect_idcode (s : State) : (linkConnect s).idcode = s.idcode := rfl
@[simp] theorem linkConnect_rdata (s : State) : (linkConnect s).rdata = s.rdata := rfl
@[simp] theorem linkConnect_status (s : State) : (linkConnect s).status = s.status := rfl
@[simp] theorem linkConnect_trace (s : State) : (linkConnect s).trace = s.trace ++ [Event.linkConnect] := rfl
@[simp] theorem linkConnect_linkOpen (s : State) : (linkConnect s).linkOpen = true := rfl
@[simp] theorem linkConnect_seq (s : State) : (linkConnect s).seq = s.seq := rfl
@[simp] theorem linkConnect_cmds (s : State) : (linkConnect s).cmds = s.cmds := rfl
@[simp] theorem linkConnect_rsps (s : State) : (linkConnect s).rsps = s.rsps := rfl
@[simp] theorem linkConnect_wireIn (s : State) : (linkConnect s).wireIn = s.wireIn := rfl
@[simp] theorem linkConnect_freeUsed (s : State) : (linkConnect s).freeUsed = s.freeUsed := rfl
@[simp] theorem linkConnect_resetIn (s : State) : (linkConnect s).resetIn = s.resetIn := rfl
@[simp] theorem linkConnect_par (s : State) : (linkConnect s).par = s.par := rfl

@[simp] theorem linkDisconnect_sess (s : State) : (linkDisconnect s).sess = s.sess := rfl
@[simp] theorem linkDisconnect_sel (s : State) : (linkDisconnect s).sel = s.sel := rfl
@[simp] theorem linkDisconnect_width (s : State) : (linkDisconnect s).width = s.width := rfl
@[simp] theorem linkDisconnect_idcode (s : State) : (linkDisconnect s).idcode = s.idcode := rfl
@[simp] theorem linkDisconnect_rdata (s : State) : (linkDisconnect s).rdata = s.rdata := rfl
@[simp] theorem linkDisconnect_status (s : State) : (linkDisconnect s).status = s.status := rfl
@[simp] theorem linkDisconnect_trace (s : State) : (linkDisconnect s).trace = s.trace ++ [Event.linkDisconnect] := rfl
@[simp] theorem linkDisconnect_linkOpen (s : State) : (linkDisconnect s).linkOpen = false := rfl
@[simp] theorem linkDisconnect_seq (s : State) : (linkDisconnect s).seq = s.seq := rfl
@[simp] theorem linkDisconnect_cmds (s : State) : (linkDisconnect s).cmds = s.cmds := rfl
@[simp] theorem linkDisconnect_rsps (s : State) : (linkDisconnect s).rsps = s.rsps := rfl
@[simp] theorem linkDisconnect_wireIn (s : State) : (linkDisconnect s).wireIn = s.wireIn := rfl
@[simp] theorem linkDisconnect_freeUsed (s : State) : (linkDisconnect s).freeUsed = s.freeUsed := rfl
@[simp] theorem linkDisconnect_resetIn (s : State) : (linkDisconnect s).resetIn = s.resetIn := rfl
@[simp] theorem linkDisconnect_par (s : State) : (linkDisconnect s).par = s.par := rfl

@[simp] theorem complete_sess (r : CmdResult) (s : State) : (complete r s).sess = s.sess := rfl
@[simp] theorem complete_sel (r : CmdResult) (s : State) : (complete r s).sel = s.sel := rfl
@[simp] theorem complete_width (r : CmdResult) (s : State) : (complete r s).width = s.width := rfl
@[simp] theorem complete_idcode (r : CmdResult) (s : State) : (complete r s).idcode = s.idcode := rfl
@[simp] theorem complete_rdata (r : CmdResult) (s : State) : (complete r s).rdata = rdataOf r := rfl
@[simp] theorem complete_status (r : CmdResult) (s : State) : (complete r s).status = statusOf r := rfl
@[simp] theorem complete_trace (r : CmdResult) (s : State) : (complete r s).trace = s.trace := rfl
@[simp] theorem complete_linkOpen (r : CmdResult) (s : State) : (complete r s).linkOpen = s.linkOpen := rfl
@[simp] theorem complete_seq (r : CmdResult) (s : State) : (complete r s).seq = .idle := rfl
@[simp] theorem complete_cmds (r : CmdResult) (s : State) : (complete r s).cmds = s.cmds := rfl
@[simp] theorem complete_rsps (r : CmdResult) (s : State) : (complete r s).rsps = s.rsps ++ [⟨statusOf r, rdataOf r⟩] := rfl
@[simp] theorem complete_wireIn (r : CmdResult) (s : State) : (complete r s).wireIn = s.wireIn := rfl
@[simp] theorem complete_freeUsed (r : CmdResult) (s : State) : (complete r s).freeUsed = s.freeUsed := rfl
@[simp] theorem complete_resetIn (r : CmdResult) (s : State) : (complete r s).resetIn = s.resetIn := rfl
@[simp] theorem complete_par (r : CmdResult) (s : State) : (complete r s).par = s.par := rfl

@[simp] theorem goto_sess (p : Pos) (ph : Phase) (s : State) : (goto p ph s).sess = s.sess := rfl
@[simp] theorem goto_sel (p : Pos) (ph : Phase) (s : State) : (goto p ph s).sel = s.sel := rfl
@[simp] theorem goto_width (p : Pos) (ph : Phase) (s : State) : (goto p ph s).width = s.width := rfl
@[simp] theorem goto_idcode (p : Pos) (ph : Phase) (s : State) : (goto p ph s).idcode = s.idcode := rfl
@[simp] theorem goto_rdata (p : Pos) (ph : Phase) (s : State) : (goto p ph s).rdata = s.rdata := rfl
@[simp] theorem goto_status (p : Pos) (ph : Phase) (s : State) : (goto p ph s).status = s.status := rfl
@[simp] theorem goto_trace (p : Pos) (ph : Phase) (s : State) : (goto p ph s).trace = s.trace := rfl
@[simp] theorem goto_linkOpen (p : Pos) (ph : Phase) (s : State) : (goto p ph s).linkOpen = s.linkOpen := rfl
@[simp] theorem goto_seq (p : Pos) (ph : Phase) (s : State) : (goto p ph s).seq = .busy p ph := rfl
@[simp] theorem goto_cmds (p : Pos) (ph : Phase) (s : State) : (goto p ph s).cmds = s.cmds := rfl
@[simp] theorem goto_rsps (p : Pos) (ph : Phase) (s : State) : (goto p ph s).rsps = s.rsps := rfl
@[simp] theorem goto_wireIn (p : Pos) (ph : Phase) (s : State) : (goto p ph s).wireIn = s.wireIn := rfl
@[simp] theorem goto_freeUsed (p : Pos) (ph : Phase) (s : State) : (goto p ph s).freeUsed = s.freeUsed := rfl
@[simp] theorem goto_resetIn (p : Pos) (ph : Phase) (s : State) : (goto p ph s).resetIn = s.resetIn := rfl
@[simp] theorem goto_par (p : Pos) (ph : Phase) (s : State) : (goto p ph s).par = s.par := rfl

@[simp] theorem closeSession_sess (s : State) : (closeSession s).sess = .disconnected := rfl
@[simp] theorem closeSession_sel (s : State) : (closeSession s).sel = none := rfl
@[simp] theorem closeSession_width (s : State) : (closeSession s).width = none := rfl
@[simp] theorem closeSession_idcode (s : State) : (closeSession s).idcode = none := rfl
@[simp] theorem closeSession_rdata (s : State) : (closeSession s).rdata = s.rdata := rfl
@[simp] theorem closeSession_status (s : State) : (closeSession s).status = s.status := rfl
@[simp] theorem closeSession_trace (s : State) : (closeSession s).trace = s.trace ++ [Event.linkDisconnect] := rfl
@[simp] theorem closeSession_linkOpen (s : State) : (closeSession s).linkOpen = false := rfl
@[simp] theorem closeSession_seq (s : State) : (closeSession s).seq = s.seq := rfl
@[simp] theorem closeSession_cmds (s : State) : (closeSession s).cmds = s.cmds := rfl
@[simp] theorem closeSession_rsps (s : State) : (closeSession s).rsps = s.rsps := rfl
@[simp] theorem closeSession_wireIn (s : State) : (closeSession s).wireIn = s.wireIn := rfl
@[simp] theorem closeSession_freeUsed (s : State) : (closeSession s).freeUsed = s.freeUsed := rfl
@[simp] theorem closeSession_resetIn (s : State) : (closeSession s).resetIn = s.resetIn := rfl
@[simp] theorem closeSession_par (s : State) : (closeSession s).par = s.par := rfl

@[simp] theorem blockReset_sess (s : State) : (blockReset s).sess = .disconnected := rfl
@[simp] theorem blockReset_sel (s : State) : (blockReset s).sel = none := rfl
@[simp] theorem blockReset_width (s : State) : (blockReset s).width = none := rfl
@[simp] theorem blockReset_idcode (s : State) : (blockReset s).idcode = none := rfl
@[simp] theorem blockReset_rdata (s : State) : (blockReset s).rdata = 0#32 := rfl
@[simp] theorem blockReset_status (s : State) : (blockReset s).status = 0x00#8 := rfl
@[simp] theorem blockReset_trace (s : State) : (blockReset s).trace = [] := rfl
@[simp] theorem blockReset_linkOpen (s : State) : (blockReset s).linkOpen = false := rfl
@[simp] theorem blockReset_seq (s : State) : (blockReset s).seq = .idle := rfl
@[simp] theorem blockReset_cmds (s : State) : (blockReset s).cmds = s.cmds := rfl
@[simp] theorem blockReset_rsps (s : State) : (blockReset s).rsps = s.rsps := rfl
@[simp] theorem blockReset_wireIn (s : State) : (blockReset s).wireIn = s.wireIn := rfl
@[simp] theorem blockReset_freeUsed (s : State) : (blockReset s).freeUsed = s.freeUsed := rfl
@[simp] theorem blockReset_resetIn (s : State) : (blockReset s).resetIn = s.resetIn := rfl
@[simp] theorem blockReset_par (s : State) : (blockReset s).par = s.par := rfl

/-! Sampling writes `wireIn`, `freeUsed` and `trace` alone. -/

@[simp] theorem sampleBit_sess (s : State) : (sampleBit s).2.sess = s.sess := by
  unfold sampleBit; split <;> rfl

@[simp] theorem sampleBits_sess (n : Nat) (s : State) : (sampleBits n s).2.sess = s.sess := by
  induction n generalizing s with
  | zero => rfl
  | succ n ih => simp [sampleBits, ih]

@[simp] theorem discardBits_sess (n : Nat) (s : State) : (discardBits n s).sess = s.sess := by simp [discardBits]

@[simp] theorem sampleBit_sel (s : State) : (sampleBit s).2.sel = s.sel := by
  unfold sampleBit; split <;> rfl

@[simp] theorem sampleBits_sel (n : Nat) (s : State) : (sampleBits n s).2.sel = s.sel := by
  induction n generalizing s with
  | zero => rfl
  | succ n ih => simp [sampleBits, ih]

@[simp] theorem discardBits_sel (n : Nat) (s : State) : (discardBits n s).sel = s.sel := by simp [discardBits]

@[simp] theorem sampleBit_width (s : State) : (sampleBit s).2.width = s.width := by
  unfold sampleBit; split <;> rfl

@[simp] theorem sampleBits_width (n : Nat) (s : State) : (sampleBits n s).2.width = s.width := by
  induction n generalizing s with
  | zero => rfl
  | succ n ih => simp [sampleBits, ih]

@[simp] theorem discardBits_width (n : Nat) (s : State) : (discardBits n s).width = s.width := by simp [discardBits]

@[simp] theorem sampleBit_idcode (s : State) : (sampleBit s).2.idcode = s.idcode := by
  unfold sampleBit; split <;> rfl

@[simp] theorem sampleBits_idcode (n : Nat) (s : State) : (sampleBits n s).2.idcode = s.idcode := by
  induction n generalizing s with
  | zero => rfl
  | succ n ih => simp [sampleBits, ih]

@[simp] theorem discardBits_idcode (n : Nat) (s : State) : (discardBits n s).idcode = s.idcode := by simp [discardBits]

@[simp] theorem sampleBit_rdata (s : State) : (sampleBit s).2.rdata = s.rdata := by
  unfold sampleBit; split <;> rfl

@[simp] theorem sampleBits_rdata (n : Nat) (s : State) : (sampleBits n s).2.rdata = s.rdata := by
  induction n generalizing s with
  | zero => rfl
  | succ n ih => simp [sampleBits, ih]

@[simp] theorem discardBits_rdata (n : Nat) (s : State) : (discardBits n s).rdata = s.rdata := by simp [discardBits]

@[simp] theorem sampleBit_status (s : State) : (sampleBit s).2.status = s.status := by
  unfold sampleBit; split <;> rfl

@[simp] theorem sampleBits_status (n : Nat) (s : State) : (sampleBits n s).2.status = s.status := by
  induction n generalizing s with
  | zero => rfl
  | succ n ih => simp [sampleBits, ih]

@[simp] theorem discardBits_status (n : Nat) (s : State) : (discardBits n s).status = s.status := by simp [discardBits]

@[simp] theorem sampleBit_linkOpen (s : State) : (sampleBit s).2.linkOpen = s.linkOpen := by
  unfold sampleBit; split <;> rfl

@[simp] theorem sampleBits_linkOpen (n : Nat) (s : State) : (sampleBits n s).2.linkOpen = s.linkOpen := by
  induction n generalizing s with
  | zero => rfl
  | succ n ih => simp [sampleBits, ih]

@[simp] theorem discardBits_linkOpen (n : Nat) (s : State) : (discardBits n s).linkOpen = s.linkOpen := by simp [discardBits]

@[simp] theorem sampleBit_seq (s : State) : (sampleBit s).2.seq = s.seq := by
  unfold sampleBit; split <;> rfl

@[simp] theorem sampleBits_seq (n : Nat) (s : State) : (sampleBits n s).2.seq = s.seq := by
  induction n generalizing s with
  | zero => rfl
  | succ n ih => simp [sampleBits, ih]

@[simp] theorem discardBits_seq (n : Nat) (s : State) : (discardBits n s).seq = s.seq := by simp [discardBits]

@[simp] theorem sampleBit_cmds (s : State) : (sampleBit s).2.cmds = s.cmds := by
  unfold sampleBit; split <;> rfl

@[simp] theorem sampleBits_cmds (n : Nat) (s : State) : (sampleBits n s).2.cmds = s.cmds := by
  induction n generalizing s with
  | zero => rfl
  | succ n ih => simp [sampleBits, ih]

@[simp] theorem discardBits_cmds (n : Nat) (s : State) : (discardBits n s).cmds = s.cmds := by simp [discardBits]

@[simp] theorem sampleBit_rsps (s : State) : (sampleBit s).2.rsps = s.rsps := by
  unfold sampleBit; split <;> rfl

@[simp] theorem sampleBits_rsps (n : Nat) (s : State) : (sampleBits n s).2.rsps = s.rsps := by
  induction n generalizing s with
  | zero => rfl
  | succ n ih => simp [sampleBits, ih]

@[simp] theorem discardBits_rsps (n : Nat) (s : State) : (discardBits n s).rsps = s.rsps := by simp [discardBits]

@[simp] theorem sampleBit_resetIn (s : State) : (sampleBit s).2.resetIn = s.resetIn := by
  unfold sampleBit; split <;> rfl

@[simp] theorem sampleBits_resetIn (n : Nat) (s : State) : (sampleBits n s).2.resetIn = s.resetIn := by
  induction n generalizing s with
  | zero => rfl
  | succ n ih => simp [sampleBits, ih]

@[simp] theorem discardBits_resetIn (n : Nat) (s : State) : (discardBits n s).resetIn = s.resetIn := by simp [discardBits]

@[simp] theorem sampleBit_par (s : State) : (sampleBit s).2.par = s.par := by
  unfold sampleBit; split <;> rfl

@[simp] theorem sampleBits_par (n : Nat) (s : State) : (sampleBits n s).2.par = s.par := by
  induction n generalizing s with
  | zero => rfl
  | succ n ih => simp [sampleBits, ih]

@[simp] theorem discardBits_par (n : Nat) (s : State) : (discardBits n s).par = s.par := by simp [discardBits]

/-! Entering a step writes `seq`, and `sel` where a SELECT write is next. -/

/-- Entering a step: the sequencer stands in it, and the cache is as before or empty. -/
theorem enter_eq (p : Pos) (s : State) :
    ∃ ph, enter p s = goto p ph s ∨ enter p s = goto p ph { s with sel := none } := by
  unfold enter
  split
  · exact ⟨_, .inl rfl⟩
  · unfold startAccess startAp
    split
    · exact ⟨_, .inl rfl⟩
    · split
      · exact ⟨_, .inr rfl⟩
      · exact ⟨_, .inl rfl⟩
    all_goals split
    all_goals first | exact ⟨_, .inl rfl⟩ | exact ⟨_, .inr rfl⟩

@[simp] theorem enter_sess (p : Pos) (s : State) : (enter p s).sess = s.sess := by
  obtain ⟨ph, h | h⟩ := enter_eq p s <;> rw [h] <;> rfl

@[simp] theorem enter_width (p : Pos) (s : State) : (enter p s).width = s.width := by
  obtain ⟨ph, h | h⟩ := enter_eq p s <;> rw [h] <;> rfl

@[simp] theorem enter_idcode (p : Pos) (s : State) : (enter p s).idcode = s.idcode := by
  obtain ⟨ph, h | h⟩ := enter_eq p s <;> rw [h] <;> rfl

@[simp] theorem enter_rdata (p : Pos) (s : State) : (enter p s).rdata = s.rdata := by
  obtain ⟨ph, h | h⟩ := enter_eq p s <;> rw [h] <;> rfl

@[simp] theorem enter_status (p : Pos) (s : State) : (enter p s).status = s.status := by
  obtain ⟨ph, h | h⟩ := enter_eq p s <;> rw [h] <;> rfl

@[simp] theorem enter_trace (p : Pos) (s : State) : (enter p s).trace = s.trace := by
  obtain ⟨ph, h | h⟩ := enter_eq p s <;> rw [h] <;> rfl

@[simp] theorem enter_linkOpen (p : Pos) (s : State) : (enter p s).linkOpen = s.linkOpen := by
  obtain ⟨ph, h | h⟩ := enter_eq p s <;> rw [h] <;> rfl

@[simp] theorem enter_cmds (p : Pos) (s : State) : (enter p s).cmds = s.cmds := by
  obtain ⟨ph, h | h⟩ := enter_eq p s <;> rw [h] <;> rfl

@[simp] theorem enter_rsps (p : Pos) (s : State) : (enter p s).rsps = s.rsps := by
  obtain ⟨ph, h | h⟩ := enter_eq p s <;> rw [h] <;> rfl

@[simp] theorem enter_wireIn (p : Pos) (s : State) : (enter p s).wireIn = s.wireIn := by
  obtain ⟨ph, h | h⟩ := enter_eq p s <;> rw [h] <;> rfl

@[simp] theorem enter_freeUsed (p : Pos) (s : State) : (enter p s).freeUsed = s.freeUsed := by
  obtain ⟨ph, h | h⟩ := enter_eq p s <;> rw [h] <;> rfl

@[simp] theorem enter_resetIn (p : Pos) (s : State) : (enter p s).resetIn = s.resetIn := by
  obtain ⟨ph, h | h⟩ := enter_eq p s <;> rw [h] <;> rfl

@[simp] theorem enter_par (p : Pos) (s : State) : (enter p s).par = s.par := by
  obtain ⟨ph, h | h⟩ := enter_eq p s <;> rw [h] <;> rfl

/-! Raising, ending a step and ending a transaction leave the ports' inputs and the parameters as they are. -/

@[simp] theorem raise_cmds (p : Pos) (e : OpError) (s : State) : (raise p e s).cmds = s.cmds := by
  unfold raise; split <;> simp

@[simp] theorem startConnect_cmds (s : State) : (startConnect s).cmds = s.cmds := by simp [startConnect]

@[simp] theorem startPoll_cmds (n : Nat) (s : State) : (startPoll n s).cmds = s.cmds := by
  unfold startPoll; split <;> simp

@[simp] theorem endConnect_cmds (w : Width) (s : State) : (endConnect w s).cmds = s.cmds := rfl

@[simp] theorem stepDone_cmds (p : Pos) (v : Word) (s : State) : (stepDone p v s).cmds = s.cmds := by
  cases p <;> simp only [stepDone] <;> (repeat' split) <;> simp

@[simp] theorem txOk_cmds (p : Pos) (t : Tx) (v : Word) (s : State) : (txOk p t v s).cmds = s.cmds := by
  unfold txOk; split <;> simp

@[simp] theorem txError_cmds (p : Pos) (t : Tx) (e : OpError) (s : State) : (txError p t e s).cmds = s.cmds := by
  unfold txError; (repeat' split) <;> simp

@[simp] theorem raise_wireIn (p : Pos) (e : OpError) (s : State) : (raise p e s).wireIn = s.wireIn := by
  unfold raise; split <;> simp

@[simp] theorem startConnect_wireIn (s : State) : (startConnect s).wireIn = s.wireIn := by simp [startConnect]

@[simp] theorem startPoll_wireIn (n : Nat) (s : State) : (startPoll n s).wireIn = s.wireIn := by
  unfold startPoll; split <;> simp

@[simp] theorem endConnect_wireIn (w : Width) (s : State) : (endConnect w s).wireIn = s.wireIn := rfl

@[simp] theorem stepDone_wireIn (p : Pos) (v : Word) (s : State) : (stepDone p v s).wireIn = s.wireIn := by
  cases p <;> simp only [stepDone] <;> (repeat' split) <;> simp

@[simp] theorem txOk_wireIn (p : Pos) (t : Tx) (v : Word) (s : State) : (txOk p t v s).wireIn = s.wireIn := by
  unfold txOk; split <;> simp

@[simp] theorem txError_wireIn (p : Pos) (t : Tx) (e : OpError) (s : State) : (txError p t e s).wireIn = s.wireIn := by
  unfold txError; (repeat' split) <;> simp

@[simp] theorem raise_freeUsed (p : Pos) (e : OpError) (s : State) : (raise p e s).freeUsed = s.freeUsed := by
  unfold raise; split <;> simp

@[simp] theorem startConnect_freeUsed (s : State) : (startConnect s).freeUsed = s.freeUsed := by simp [startConnect]

@[simp] theorem startPoll_freeUsed (n : Nat) (s : State) : (startPoll n s).freeUsed = s.freeUsed := by
  unfold startPoll; split <;> simp

@[simp] theorem endConnect_freeUsed (w : Width) (s : State) : (endConnect w s).freeUsed = s.freeUsed := rfl

@[simp] theorem stepDone_freeUsed (p : Pos) (v : Word) (s : State) : (stepDone p v s).freeUsed = s.freeUsed := by
  cases p <;> simp only [stepDone] <;> (repeat' split) <;> simp

@[simp] theorem txOk_freeUsed (p : Pos) (t : Tx) (v : Word) (s : State) : (txOk p t v s).freeUsed = s.freeUsed := by
  unfold txOk; split <;> simp

@[simp] theorem txError_freeUsed (p : Pos) (t : Tx) (e : OpError) (s : State) : (txError p t e s).freeUsed = s.freeUsed := by
  unfold txError; (repeat' split) <;> simp

@[simp] theorem raise_resetIn (p : Pos) (e : OpError) (s : State) : (raise p e s).resetIn = s.resetIn := by
  unfold raise; split <;> simp

@[simp] theorem startConnect_resetIn (s : State) : (startConnect s).resetIn = s.resetIn := by simp [startConnect]

@[simp] theorem startPoll_resetIn (n : Nat) (s : State) : (startPoll n s).resetIn = s.resetIn := by
  unfold startPoll; split <;> simp

@[simp] theorem endConnect_resetIn (w : Width) (s : State) : (endConnect w s).resetIn = s.resetIn := rfl

@[simp] theorem stepDone_resetIn (p : Pos) (v : Word) (s : State) : (stepDone p v s).resetIn = s.resetIn := by
  cases p <;> simp only [stepDone] <;> (repeat' split) <;> simp

@[simp] theorem txOk_resetIn (p : Pos) (t : Tx) (v : Word) (s : State) : (txOk p t v s).resetIn = s.resetIn := by
  unfold txOk; split <;> simp

@[simp] theorem txError_resetIn (p : Pos) (t : Tx) (e : OpError) (s : State) : (txError p t e s).resetIn = s.resetIn := by
  unfold txError; (repeat' split) <;> simp

@[simp] theorem raise_par (p : Pos) (e : OpError) (s : State) : (raise p e s).par = s.par := by
  unfold raise; split <;> simp

@[simp] theorem startConnect_par (s : State) : (startConnect s).par = s.par := by simp [startConnect]

@[simp] theorem startPoll_par (n : Nat) (s : State) : (startPoll n s).par = s.par := by
  unfold startPoll; split <;> simp

@[simp] theorem endConnect_par (w : Width) (s : State) : (endConnect w s).par = s.par := rfl

@[simp] theorem stepDone_par (p : Pos) (v : Word) (s : State) : (stepDone p v s).par = s.par := by
  cases p <;> simp only [stepDone] <;> (repeat' split) <;> simp

@[simp] theorem txOk_par (p : Pos) (t : Tx) (v : Word) (s : State) : (txOk p t v s).par = s.par := by
  unfold txOk; split <;> simp

@[simp] theorem txError_par (p : Pos) (t : Tx) (e : OpError) (s : State) : (txError p t e s).par = s.par := by
  unfold txError; (repeat' split) <;> simp

end Sys2Proof.Machine
end

