-- ==== Sys2Proof/Laws/Ops.lean ====
section
/-! SUPPORT. What each shared operation can do, said once: sampling, entering a step, raising, the end of a step and of a
transaction, and how runs of steps are joined. -/

namespace Sys2Proof.Machine
open Sys2Proof.Safety

/-! ## Sampling -/

/-- One sampled bit lengthens the trace by that bit. -/
theorem sampleBit_trace (s : State) : (sampleBit s).2.trace = s.trace ++ [Event.sample (sampleBit s).1] := by
  unfold sampleBit; split <;> rfl

/-- `n` sampled bits lengthen the trace by those bits. -/
theorem sampleBits_trace (n : Nat) (s : State) :
    (sampleBits n s).2.trace = s.trace ++ (sampleBits n s).1.map Event.sample := by
  induction n generalizing s with
  | zero => simp [sampleBits]
  | succ n ih => simp [sampleBits, ih, sampleBit_trace]

/-- `Sample(n)` returns `n` bits. -/
@[simp] theorem sampleBits_length (n : Nat) (s : State) : (sampleBits n s).1.length = n := by
  induction n generalizing s with
  | zero => rfl
  | succ n ih => simp [sampleBits, ih]

/-- `Sample(n)` returns the next `n` bits the environment supplies, and the state after them (R7, R8). -/
theorem sampleBits_eq (n : Nat) (s : State) : sampleBits n s = (supplied n s, afterSampling n s) := by
  induction n generalizing s with
  | zero => cases s; simp [sampleBits, supplied, afterSampling, samples]
  | succ n ih =>
    rw [sampleBits, ih]
    unfold sampleBit
    rcases hw : s.wireIn with _ | ⟨b, r⟩
    · simp [supplied, afterSampling, samples, hw, List.range_succ_eq_map, Nat.add_comm, Nat.add_left_comm,
        Function.comp_def]
    · simp [supplied, afterSampling, samples, hw]

/-- Discarded bits are sampled all the same. -/
theorem discardBits_eq (n : Nat) (s : State) : discardBits n s = afterSampling n s := by
  rw [discardBits, sampleBits_eq]

/-- Bits the environment lists are sampled in their order. -/
theorem sampleBits_listed (bits rest : List Bool) (s : State) (h : s.wireIn = bits ++ rest) :
    sampleBits bits.length s =
      (bits, { s with wireIn := rest, trace := s.trace ++ bits.map Event.sample }) := by
  induction bits generalizing s with
  | nil => cases s; simp_all [sampleBits]
  | cons b bs ih =>
    have hs : sampleBit s = (b, { s with wireIn := bs ++ rest, trace := s.trace ++ [Event.sample b] }) := by
      simp [sampleBit, h]
    rw [List.length_cons, sampleBits, hs, ih _ rfl]
    simp

/-- Discarded bits that the environment lists leave the wire in their order. -/
theorem discardBits_listed (bits rest : List Bool) (s : State) (h : s.wireIn = bits ++ rest) :
    discardBits bits.length s = { s with wireIn := rest, trace := s.trace ++ bits.map Event.sample } := by
  rw [discardBits, sampleBits_listed bits rest s h]

/-! ## Runs -/

@[simp] theorem steps_zero (s : State) : steps 0 s = .next s := rfl

/-- A run of `k + 1` steps whose first step is known. -/
theorem steps_succ {k : Nat} {s t : State} (h : step s = .next t) : steps (k + 1) s = steps k t := by
  show Host.Core.run Sys2Proof.core (k + 1) s = _
  have h' : Sys2Proof.core.step s = .next t := h
  simp only [Host.Core.run, h', steps]

/-- A run of one step. -/
theorem steps_one {s t : State} (h : step s = .next t) : steps 1 s = .next t :=
  (steps_succ h).trans (steps_zero t)

/-- Two runs, one after the other. -/
theorem steps_add {j k : Nat} {s t : State} (h : steps j s = .next t) : steps (j + k) s = steps k t := by
  induction j generalizing s with
  | zero =>
    have : s = t := by simpa using h
    rw [this, Nat.zero_add]
  | succ j ih =>
    rw [Nat.succ_add]
    cases hs : step s with
    | next u => rw [steps_succ hs] at h ⊢; exact ih h
    | fault r =>
      have h' : Sys2Proof.core.step s = .fault r := hs
      simp [steps, Host.Core.run, h'] at h
    | refused r =>
      have h' : Sys2Proof.core.step s = .refused r := hs
      simp [steps, Host.Core.run, h'] at h

/-- With the reset input low a step is one operation. -/
theorem step_of_quiet (s : State) (h : s.resetIn = []) : step s = operate s := by
  simp [step, advance, h]

/-- What raising an error does: in CONNECT the line reset is next, elsewhere the command is answered (R204, R245). -/
theorem raise_eq (p : Pos) (e : OpError) (s : State) : raise p e s = erred p e s := by
  unfold raise erred
  cases inConnect p
  · cases e <;> simp [complete, answered, statusOf, rdataOf, errorStatus, errorCode]
  · simp [enter, plan, goto]

end Sys2Proof.Machine
end

