-- ==== Sys2Proof/Laws/PerInstr.lean ====
section
/-! SUPPORT. One law per operation, about it as syntax: the first word of its encoding is the row of spec/opcode_table.json
that it stands for. The rows' `match` and `mask` are the table's own, which has the parameters' values of
R6. -/

namespace Sys2Proof.Laws.TableRow
open Sys2Proof.Machine

/-- `match` and `mask` of an operation's row. -/
def row : Instr → Nat × Nat
  | .connect => (0x00000000, 0xFF00008F)
  | .disconnect => (0x00000001, 0xFF00008F)
  | .reset => (0x00000002, 0xFF00008F)
  | .invalidate => (0x00000003, 0xFF00008F)
  | .readmem _ _ => (0x00000004, 0xFF00008F)
  | .writemem _ _ _ => (0x00000005, 0xFF00008F)
  | .readportDp _ => (0x00000006, 0xFF00F3CF)
  | .readportAp _ _ => (0x00000046, 0xFF0003CF)
  | .writeportDp _ _ => (0x00000007, 0xFF00F3CF)
  | .writeportAp _ _ _ => (0x00000047, 0xFF0003CF)
  | .reqDpW0 => (0x81, 0xFF)
  | .reqDpW4 => (0xA9, 0xFF)
  | .reqDpW8 => (0xB1, 0xFF)
  | .reqDpWC => (0x99, 0xFF)
  | .reqDpR0 => (0xA5, 0xFF)
  | .reqDpR4 => (0x8D, 0xFF)
  | .reqDpR8 => (0x95, 0xFF)
  | .reqDpRC => (0xBD, 0xFF)
  | .reqApW0 => (0xA3, 0xFF)
  | .reqApW4 => (0x8B, 0xFF)
  | .reqApW8 => (0x93, 0xFF)
  | .reqApWC => (0xBB, 0xFF)
  | .reqApR0 => (0x87, 0xFF)
  | .reqApR4 => (0xAF, 0xFF)
  | .reqApR8 => (0xB7, 0xFF)
  | .reqApRC => (0x9F, 0xFF)
  | .req _ _ _ => (0x81, 0xC1)
  | .ackOk => (0x1, 0x7)
  | .ackWait => (0x2, 0x7)
  | .ackFault => (0x4, 0x7)
  | .ackUndecodable000 => (0x0, 0x7)
  | .ackUndecodable011 => (0x3, 0x7)
  | .ackUndecodable101 => (0x5, 0x7)
  | .ackUndecodable110 => (0x6, 0x7)
  | .ackUndecodable111 => (0x7, 0x7)
  | .wdata _ => (0x0, 0x1)
  | .rdata _ _ _ => (0x0, 0x0)
  | .lineReset => (0xFFFFFFFFFFFFFF, 0xFFFFFFFFFFFFFF)
  | .jtagToSwd => (0xE79E, 0xFFFF)
  | .idle8 => (0x00, 0xFF)

/-- The first word of a frame, as the number the table writes it as. -/
def firstWord : Frame → Nat
  | .cmd c _ _ => c.toNat
  | .sendRequest w | .req w => w.toNat
  | .ack w => w.toNat
  | .wdata w | .rdata w => w.toNat
  | .lineReset w | .jtagToSwd w | .idle8 w => (BitVec.ofBoolListLE w).toNat

/-- The encoded operation carries the fixed bits of its row. -/
def Statement (i : Instr) : Prop :=
  WellFormed i → firstWord (encode Config.defaultParams i) &&& (row i).2 = (row i).1

/-- A bit of the command word (R96). -/
theorem commandWord_bit (op : BitVec 4) (w : BitVec 2) (k : BitVec 1) (r a : BitVec 8) (i : Nat) :
    (commandWord op w k r a).getLsbD i =
      if i < 4 then op.getLsbD i else if i < 6 then w.getLsbD (i - 4) else if i < 7 then k.getLsbD (i - 6)
      else if i < 8 then false else if i < 16 then r.getLsbD (i - 8) else if i < 24 then a.getLsbD (i - 16)
      else false := by
  simp only [commandWord, BitVec.getLsbD_append]
  split_ifs <;> first | rfl | omega | simp [Nat.sub_sub]

/-- The fixed bits of a command row that leaves its register free: OP and the reserved bits. -/
theorem commandWord_row (op : BitVec 4) (w : BitVec 2) (k : BitVec 1) (r a : BitVec 8) :
    commandWord op w k r a &&& 0xFF00008F#32 = op.setWidth 32 := by
  ext i hi
  rw [← BitVec.getLsbD_eq_getElem, ← BitVec.getLsbD_eq_getElem, BitVec.getLsbD_and, commandWord_bit]
  interval_cases i <;> simp

/-- The bits of a register address that the port rows fix. -/
theorem alignedReg_bits {r : BitVec 8} (h : alignedReg r) : r[0] = false ∧ r[1] = false := by
  revert r; decide +kernel

/-- The bits of a register address that the DP port rows fix besides. -/
theorem dpOffset_bits {r : BitVec 8} (h : dpOffset r) :
    r[4] = false ∧ r[5] = false ∧ r[6] = false ∧ r[7] = false := by
  revert r; decide +kernel

/-- The fixed bits of an AP port row. -/
theorem commandWord_apRow (op : BitVec 4) (w : BitVec 2) (k : BitVec 1) {r : BitVec 8} (a : BitVec 8)
    (h : alignedReg r) :
    commandWord op w k r a &&& 0xFF0003CF#32 = (k ++ 0#2 ++ op).setWidth 32 := by
  obtain ⟨h0, h1⟩ := alignedReg_bits h
  ext i hi
  rw [← BitVec.getLsbD_eq_getElem, ← BitVec.getLsbD_eq_getElem, BitVec.getLsbD_and, commandWord_bit,
    BitVec.getLsbD_setWidth, BitVec.getLsbD_append, BitVec.getLsbD_append]
  interval_cases i <;> simp [h0, h1]

/-- The fixed bits of a DP port row. -/
theorem commandWord_dpRow (op : BitVec 4) (w : BitVec 2) (k : BitVec 1) {r : BitVec 8} (a : BitVec 8)
    (h : alignedReg r) (hd : dpOffset r) :
    commandWord op w k r a &&& 0xFF00F3CF#32 = (k ++ 0#2 ++ op).setWidth 32 := by
  obtain ⟨h0, h1⟩ := alignedReg_bits h
  obtain ⟨h4, h5, h6, h7⟩ := dpOffset_bits hd
  ext i hi
  rw [← BitVec.getLsbD_eq_getElem, ← BitVec.getLsbD_eq_getElem, BitVec.getLsbD_and, commandWord_bit,
    BitVec.getLsbD_setWidth, BitVec.getLsbD_append, BitVec.getLsbD_append]
  interval_cases i <;> simp [h0, h1, h4, h5, h6, h7]

theorem connect : Statement .connect := by intro _; decide
theorem disconnect : Statement .disconnect := by intro _; decide
theorem reset : Statement .reset := by intro _; decide
theorem invalidate : Statement .invalidate := by intro _; decide
theorem readmem : ∀ width addr, Statement (.readmem width addr) := by
  intro w _ _
  exact congrArg BitVec.toNat (commandWord_row 0x4#4 (encodeWidthCode w) 0#1 0#8 0#8)
theorem writemem : ∀ width addr value, Statement (.writemem width addr value) := by
  intro w _ _ _
  exact congrArg BitVec.toNat (commandWord_row 0x5#4 (encodeWidthCode w) 0#1 0#8 0#8)
theorem readportDp : ∀ regAddr, Statement (.readportDp regAddr) := by
  intro r h
  have h : alignedReg r ∧ dpOffset r := of_decide_eq_true h
  exact congrArg BitVec.toNat (commandWord_dpRow 0x6#4 0#2 0#1 0#8 h.1 h.2)
theorem readportAp : ∀ apIndex regAddr, Statement (.readportAp apIndex regAddr) := by
  intro a r h
  exact congrArg BitVec.toNat (commandWord_apRow 0x6#4 0#2 1#1 a (of_decide_eq_true h))
theorem writeportDp : ∀ regAddr value, Statement (.writeportDp regAddr value) := by
  intro r _ h
  have h : alignedReg r ∧ dpOffset r := of_decide_eq_true h
  exact congrArg BitVec.toNat (commandWord_dpRow 0x7#4 0#2 0#1 0#8 h.1 h.2)
theorem writeportAp : ∀ apIndex regAddr value, Statement (.writeportAp apIndex regAddr value) := by
  intro a r _ h
  exact congrArg BitVec.toNat (commandWord_apRow 0x7#4 0#2 1#1 a (of_decide_eq_true h))
theorem reqDpW0 : Statement .reqDpW0 := by intro _; decide
theorem reqDpW4 : Statement .reqDpW4 := by intro _; decide
theorem reqDpW8 : Statement .reqDpW8 := by intro _; decide
theorem reqDpWC : Statement .reqDpWC := by intro _; decide
theorem reqDpR0 : Statement .reqDpR0 := by intro _; decide
theorem reqDpR4 : Statement .reqDpR4 := by intro _; decide
theorem reqDpR8 : Statement .reqDpR8 := by intro _; decide
theorem reqDpRC : Statement .reqDpRC := by intro _; decide
theorem reqApW0 : Statement .reqApW0 := by intro _; decide
theorem reqApW4 : Statement .reqApW4 := by intro _; decide
theorem reqApW8 : Statement .reqApW8 := by intro _; decide
theorem reqApWC : Statement .reqApWC := by intro _; decide
theorem reqApR0 : Statement .reqApR0 := by intro _; decide
theorem reqApR4 : Statement .reqApR4 := by intro _; decide
theorem reqApR8 : Statement .reqApR8 := by intro _; decide
theorem reqApRC : Statement .reqApRC := by intro _; decide
theorem req : ∀ apndp rnw a32, Statement (.req apndp rnw a32) := by
  unfold Statement; decide
theorem ackOk : Statement .ackOk := by intro _; decide
theorem ackWait : Statement .ackWait := by intro _; decide
theorem ackFault : Statement .ackFault := by intro _; decide
theorem ackUndecodable000 : Statement .ackUndecodable000 := by intro _; decide
theorem ackUndecodable011 : Statement .ackUndecodable011 := by intro _; decide
theorem ackUndecodable101 : Statement .ackUndecodable101 := by intro _; decide
theorem ackUndecodable110 : Statement .ackUndecodable110 := by intro _; decide
theorem ackUndecodable111 : Statement .ackUndecodable111 := by intro _; decide
theorem wdata : ∀ value, Statement (.wdata value) := by
  intro v _
  have h : wdataWord v &&& 1#34 = 0#34 := by
    ext i hi
    rw [← BitVec.getLsbD_eq_getElem, BitVec.getLsbD_and]
    rcases i with _ | i
    · rw [wdataWord_turnaround]; simp
    · simp
  exact congrArg BitVec.toNat h
theorem rdata : ∀ value parity turnaround, Statement (.rdata value parity turnaround) := by
  intro v p b _
  exact Nat.and_zero _
theorem lineReset : Statement .lineReset := by intro _; decide +kernel
theorem jtagToSwd : Statement .jtagToSwd := by intro _; decide
theorem idle8 : Statement .idle8 := by intro _; decide

end Sys2Proof.Laws.TableRow
end

