-- ==== Sys2Proof/Laws/Step.lean ====
section
/-! SUPPORT. What one step does, said once: one lemma per phase of the sequencer, and the runs of a whole transaction. A
proof about a run cites these instead of unfolding fetch, decode and exec. -/

namespace Sys2Proof.Machine
open Sys2Proof.Safety

/-- The bits of a fixed sequence. -/
def lineBits (par : Params) : LineSeq → List Bool
  | .lineReset => lineResetBits par
  | .jtagToSwd => jtagToSwdBits par
  | .idle8 => idle8Bits par

/-- A fixed sequence is driven and its step has returned. -/
theorem operate_line {s : State} {p : Pos} {l : LineSeq} (h : s.seq = .busy p (.line l)) :
    operate s = .next (stepDone p 0#32 (drive (lineBits s.par l) s)) := by
  cases l <;>
    simp [operate, fetch, h, lineFrame, decode, exec, execLineReset, execJtagToSwd, execIdle8, driveLine, lineBits]

/-- `sendRequest` is called. -/
theorem operate_issue {s : State} {p : Pos} {t : Tx} (h : s.seq = .busy p (.issue t)) :
    operate s = .next (goto p (.q1 t 1) s) := by
  simp [operate, fetch, h, exec, execReq]

/-- A request frame is driven. -/
theorem operate_q1 {s : State} {p : Pos} {t : Tx} {n : Nat} (h : s.seq = .busy p (.q1 t n)) :
    operate s = .next (goto p (.q2 t n) (drive (reqFrame t.apndp t.rnw t.a32) s)) := by
  simp [operate, fetch, h, driveRequest]

/-- An acknowledgement is sampled and obeyed. -/
theorem operate_q2 {s : State} {p : Pos} {t : Tx} {n : Nat} (h : s.seq = .busy p (.q2 t n)) :
    operate s = exec (decodeAckCode s.par (val 3 ((sampleBits 4 s).1.drop 1))) (sampleBits 4 s).2 := by
  simp [operate, fetch, h, decode]

/-- What an acknowledgement can do to a transaction that awaits one (R115). The parameters are those of the state, under
whatever name they are given. -/
theorem exec_ack_cases {s : State} {p : Pos} {t : Tx} {n : Nat} {par : Params} (c : BitVec 3) (hp : s.par = par)
    (h : s.seq = .busy p (.q2 t n)) :
    exec (decodeAckCode par c) s =
      .next (if c = par.ackOk then goto p (.data t) s
        else if c = par.ackWait then
          if n < par.waitRetryBound then goto p (.q1 t (n + 1)) (discardBits 1 s)
          else txError p t .busy (discardBits par.ackErrTrn.val s)
        else if c = par.ackFault then txError p t .fault (discardBits par.ackErrTrn.val s)
        else txError p t .noAck (discardBits par.ackErrTrn.val s)) := by
  subst hp
  by_cases ho : c = s.par.ackOk
  · simp [ho, exec, execAckOk, h]
  · by_cases hw : c = s.par.ackWait
    · subst hw
      simp only [decodeAckCode_wait ho, exec, execAckWait, h, if_neg ho, if_true]
      split <;> rfl
    · by_cases hf : c = s.par.ackFault
      · subst hf
        have : decodeAckCode s.par s.par.ackFault = .ackFault := by simp [decodeAckCode, ho, hw]
        simp [this, exec, execAckFault, ackRaises, h, ho, hw]
      · obtain e | e | e | e | e := decodeAckCode_other ho hw hf <;>
          simp [e, exec, execAckUndecodable000, execAckUndecodable011, execAckUndecodable101, execAckUndecodable110,
            execAckUndecodable111, ackRaises, h, ho, hw, hf]

/-- A write's data packet is driven and the transaction has returned. -/
theorem operate_write {s : State} {p : Pos} {t : Tx} (h : s.seq = .busy p (.data t)) (hr : t.rnw = false) :
    operate s =
      .next (txOk p t 0#32 (drive (wdataBits t.wdata ++ zeros s.par.postWriteIdle) s)) := by
  simp [operate, fetch, h, hr, exec, execWdata]

/-- Any 34 sampled bits are data, parity and turnaround. -/
theorem val_sampled (l : List Bool) (h : l.length = 34) :
    val 34 l = rdataWord (val 32 (l.take 32)) (l.getD 32 false) (l.getD 33 false) := by
  rw [← val_packet]
  congr 1
  apply List.ext_getElem
  · simp [h]
  · intro i h1 h2
    by_cases hi : i < 32
    · have : (lsbf (val 32 (l.take 32)))[i]'(by simpa using hi) = l[i] := by
        simp only [lsbf, List.getElem_map, List.getElem_range]
        rw [val, BitVec.getLsbD_setWidth, BitVec.getLsbD_ofBoolListLE]
        simp [hi, h1]
      simp [hi, this]
    · obtain rfl | rfl : i = 32 ∨ i = 33 := by omega
      · simp [h]
      · simp [h]

/-- A read's data packet is sampled; its parity decides between a value and ParityError. -/
theorem operate_read {s : State} {p : Pos} {t : Tx} (h : s.seq = .busy p (.data t)) (hr : t.rnw = true) :
    operate s =
      .next (if parity32 (val 32 ((sampleBits 34 s).1.take 32)) = (sampleBits 34 s).1.getD 32 false
        then txOk p t (val 32 ((sampleBits 34 s).1.take 32)) (sampleBits 34 s).2
        else txError p t .parity (sampleBits 34 s).2) := by
  simp only [operate, fetch, h, hr, if_true]
  rw [val_sampled _ (sampleBits_length 34 s)]
  simp only [decode_rdataWord, exec, execRdata, sampleBits_seq, h, hr, if_true]
  split <;> rfl

/-- The idle block with nothing presented to it waits. -/
theorem operate_waits {s : State} (h : s.seq = .idle) (hc : s.cmds = []) : operate s = .next s := by
  simp [operate, fetch, h, hc]

/-- The idle block takes the first command presented to it. -/
theorem operate_command {s : State} {c : Command} {rest : List Command} (h : s.seq = .idle) (hc : s.cmds = c :: rest) :
    operate s = match decodeCmd c.cmd c.addr c.wdata with
      | .ok i => exec i { s with cmds := rest }
      | .error _ => .next (complete .illegalCommand { s with cmds := rest }) := by
  simp only [operate, fetch, h, hc, decode]
  split <;> simp [rejected, *]

/-! ## Whole transactions -/

/-- A listed acknowledgement leaves its code. -/
theorem sampled_ack {s : State} {trn : Bool} {c : BitVec 3} {rest : List Bool}
    (h : s.wireIn = ackBits trn c ++ rest) :
    sampleBits 4 s =
      (ackBits trn c, { s with wireIn := rest, trace := s.trace ++ samples (ackBits trn c) }) := by
  have := sampleBits_listed (ackBits trn c) rest s h
  simpa [ackBits, samples] using this

/-- One step samples a listed acknowledgement and obeys it (R115). -/
theorem step_ack {s : State} {p : Pos} {t : Tx} {n : Nat} {trn : Bool} {c : BitVec 3} {rest : List Bool}
    (h : s.seq = .busy p (.q2 t n)) (hq : s.resetIn = []) (hw : s.wireIn = ackBits trn c ++ rest) :
    step s = exec (decodeAckCode s.par c) { s with wireIn := rest, trace := s.trace ++ samples (ackBits trn c) } := by
  rw [step_of_quiet s hq, operate_q2 h, sampled_ack hw]
  simp [ackBits]

/-- The error an acknowledgement that ends a transaction raises (R117, R119, R120). -/
def ackError (par : Params) (c : BitVec 3) : OpError :=
  if c = par.ackWait then .busy else if c = par.ackFault then .fault else .noAck

/-- One step samples a listed acknowledgement that ends the transaction, and the `ACK_ERR_TRN` bits after it, and raises its
error (R117, R119, R120). -/
theorem step_ack_raises {s : State} {p : Pos} {t : Tx} {n : Nat} {trn : Bool} {c : BitVec 3} {e rest : List Bool}
    (h : s.seq = .busy p (.q2 t n)) (hq : s.resetIn = []) (hw : s.wireIn = ackBits trn c ++ (e ++ rest))
    (he : e.length = s.par.ackErrTrn.val) (ho : c ≠ s.par.ackOk)
    (hb : c = s.par.ackWait → s.par.waitRetryBound ≤ n) :
    step s = .next (txError p t (ackError s.par c)
      { s with wireIn := rest, trace := s.trace ++ samples (ackBits trn c) ++ samples e }) := by
  have hd := discardBits_listed e rest
    { s with wireIn := e ++ rest, trace := s.trace ++ samples (ackBits trn c) } rfl
  have hx := exec_ack_cases
    (s := { s with wireIn := e ++ rest, trace := s.trace ++ samples (ackBits trn c) }) (par := s.par) c rfl h
  rw [he] at hd
  rw [step_ack h hq hw, hx, if_neg ho, hd, ackError]
  by_cases hc : c = s.par.ackWait
  · rw [if_pos hc, if_pos hc, if_neg (Nat.not_lt.2 (hb hc))]; rfl
  · rw [if_neg hc, if_neg hc]
    split <;> rfl

/-- From the call of `sendRequest` to the acknowledgement of its first attempt: two steps. -/
theorem steps_requested {s : State} {p : Pos} {t : Tx} (h : s.seq = .busy p (.issue t)) (hq : s.resetIn = []) :
    steps 2 s = .next { s with
      seq := .busy p (.q2 t 1), trace := s.trace ++ drives (reqFrame t.apndp t.rnw t.a32) } := by
  rw [steps_succ (by rw [step_of_quiet s hq, operate_issue h])]
  rw [steps_succ (by rw [step_of_quiet _ (by simpa using hq), operate_q1 rfl])]
  simp [goto, drive, drives]

/-- An error other than FaultError, of a transaction other than the ABORT write, is raised as it stands
(R140). -/
theorem txError_eq {t : Tx} {e : OpError} (p : Pos) (s : State) (h : t.role ≠ .clear) (he : e ≠ .fault) :
    txError p t e s = erred p e s := by
  rcases t with ⟨a, r, x, w, role⟩
  cases role <;> cases e <;> simp_all [txError, raise_eq]

/-- A transaction from its call to an OK acknowledgement: three steps. -/
theorem steps_acked {s : State} {p : Pos} {t : Tx} {trn : Bool} {rest : List Bool}
    (h : s.seq = .busy p (.issue t)) (hq : s.resetIn = [])
    (hw : s.wireIn = ackBits trn s.par.ackOk ++ rest) :
    steps 3 s = .next { s with
      seq := .busy p (.data t)
      wireIn := rest
      trace := s.trace ++ (drives (reqFrame t.apndp t.rnw t.a32) ++ samples (ackBits trn s.par.ackOk)) } := by
  rw [steps_succ (by rw [step_of_quiet s hq, operate_issue h])]
  rw [steps_succ (by rw [step_of_quiet _ (by simpa using hq), operate_q1 rfl])]
  refine (steps_succ ?_).trans (steps_zero _)
  rw [step_of_quiet _ (by simpa using hq), operate_q2 rfl, sampled_ack (trn := trn) (by simpa using hw)]
  simp only [ackBits, List.drop_succ_cons, List.drop_zero, val_lsbf]
  simp [exec, execAckOk, goto, drive, drives, samples]

/-- A write transaction answered OK at once: four steps (R83, R129). -/
theorem steps_write {s : State} {p : Pos} {t : Tx} {trn : Bool} {rest : List Bool}
    (h : s.seq = .busy p (.issue t)) (hr : t.rnw = false) (hq : s.resetIn = [])
    (hw : s.wireIn = ackBits trn s.par.ackOk ++ rest) :
    steps 4 s = .next (txOk p t 0#32 { s with
      seq := .busy p (.data t)
      wireIn := rest
      trace := s.trace ++ writeEvents s.par t.apndp t.a32 t.wdata trn }) := by
  rw [show 4 = 3 + 1 from rfl, steps_add (steps_acked h hq hw)]
  refine (steps_succ ?_).trans (steps_zero _)
  rw [step_of_quiet _ (by simpa using hq), operate_write rfl hr]
  simp [drive, writeEvents, drives, hr]

/-- A read transaction answered OK at once with good parity: four steps (R83, R128). -/
theorem steps_read {s : State} {p : Pos} {t : Tx} {trn trn' : Bool} {v : Word} {rest : List Bool}
    (h : s.seq = .busy p (.issue t)) (hr : t.rnw = true) (hq : s.resetIn = [])
    (hw : s.wireIn = readAnswer s.par trn v trn' ++ rest) :
    steps 4 s = .next (txOk p t v { s with
      seq := .busy p (.data t)
      wireIn := rest
      trace := s.trace ++ readEvents s.par t.apndp t.a32 trn v trn' }) := by
  rw [show 4 = 3 + 1 from rfl,
    steps_add (steps_acked h hq (by rw [hw, readAnswer, List.append_assoc]))]
  refine (steps_succ ?_).trans (steps_zero _)
  rw [step_of_quiet _ (by simpa using hq), operate_read rfl hr]
  have hl : (packetBits v trn').length = 34 := by simp [packetBits]
  have := sampleBits_listed (packetBits v trn') rest
    { s with
      seq := .busy p (.data t)
      wireIn := packetBits v trn' ++ rest
      trace := s.trace ++ (drives (reqFrame t.apndp t.rnw t.a32) ++ samples (ackBits trn s.par.ackOk)) } rfl
  rw [hl] at this
  rw [this]
  have hv : val 32 ((packetBits v trn').take 32) = v := by
    rw [packetBits, List.take_left' (by simp)]; simp
  have hp : (packetBits v trn').getD 32 false = parity32 v := by
    simp [packetBits]
  rw [if_pos (by rw [hv, hp])]
  simp [hv, readEvents, samples, hr]

end Sys2Proof.Machine
end

