-- ==== Sys2Proof/Machine/Listing.lean ====
section
/-! DEFINITION. The listing form of a command, one line each (spec/30_encoding.md R103). It is notation only: no step reads
it, and the wire rows have none (R104). -/

namespace Sys2Proof.Machine

/-- The hexadecimal digits of a number below `16 ^ n`, most significant first. -/
def hexDigits : Nat → Nat → String
  | 0, _ => ""
  | n + 1, v => hexDigits n (v / 16) ++ String.singleton (Nat.digitChar (v % 16)).toUpper

/-- The same without leading zeros. -/
def hexShort : Nat → Nat → String
  | 0, _ => ""
  | n + 1, v => if v < 16 then hexDigits 1 v else hexShort n (v / 16) ++ hexDigits 1 v

/-- A word as the listings of spec/95_test_vectors.md write it: hexadecimal with `0x` (R103). -/
def hexWord (v : Word) : String := "0x" ++ hexShort 8 v.toNat

/-- An AP register address as they write it: always two digits. -/
def hexReg (v : BitVec 8) : String := "0x" ++ hexDigits 2 v.toNat

/-- A DP offset: no leading zero. -/
def hexOffset (v : BitVec 8) : String := "0x" ++ hexShort 2 v.toNat

/-- The width suffix of a memory command: 8, 16, 32, or d for WIDTH code 3 (R103). -/
def widthSuffix : WidthCode → String
  | .w8 => "8"
  | .w16 => "16"
  | .w32 => "32"
  | .session => "d"

/-- The line of a command; nothing for a wire row (R103, R104). -/
def listing : Instr → Option String
  | .connect => some "connect"
  | .disconnect => some "disconnect"
  | .reset => some "reset"
  | .invalidate => some "invalidate"
  | .readmem w a => some ("readmem." ++ widthSuffix w ++ " " ++ hexWord a)
  | .writemem w a v => some ("writemem." ++ widthSuffix w ++ " " ++ hexWord a ++ ", " ++ hexWord v)
  | .readportDp r => some ("readport dp, " ++ hexOffset r)
  | .readportAp k r => some ("readport ap" ++ toString k.toNat ++ ", " ++ hexReg r)
  | .writeportDp r v => some ("writeport dp, " ++ hexOffset r ++ ", " ++ hexWord v)
  | .writeportAp k r v =>
    some ("writeport ap" ++ toString k.toNat ++ ", " ++ hexReg r ++ ", " ++ hexWord v)
  | .reqDpW0 | .reqDpW4 | .reqDpW8 | .reqDpWC | .reqDpR0 | .reqDpR4 | .reqDpR8 | .reqDpRC => none
  | .reqApW0 | .reqApW4 | .reqApW8 | .reqApWC | .reqApR0 | .reqApR4 | .reqApR8 | .reqApRC => none
  | .req _ _ _ => none
  | .ackOk | .ackWait | .ackFault => none
  | .ackUndecodable000 | .ackUndecodable011 | .ackUndecodable101 | .ackUndecodable110 | .ackUndecodable111 => none
  | .wdata _ | .rdata _ _ _ => none
  | .lineReset | .jtagToSwd | .idle8 => none

end Sys2Proof.Machine
end

