-- ==== Sys2Proof/Tests/Slice0.lean ====
section
/-! SUPPORT. The model's own tests. Expected words, frames, states and codes are taken from spec/opcode_table.json and from
spec/95_test_vectors.md (the vector is named beside each test); each step test runs one step. The last part holds a witness
for the hypotheses of every statement that has any. -/

namespace Sys2Proof.Tests
open Sys2Proof.Machine Sys2Proof.Safety

/-! ## Helpers -/

/-- The parameters with the values of R6, which the vectors use. -/
abbrev std : Params := Config.defaultParams

/-- Bits as the vectors print them. -/
def bits (l : List Nat) : List Bool := l.map fun n => n == 1

/-- What a step leaves, read through `f`. -/
def look {α : Type} (o : Host.Outcome State Fault Refusal) (f : State → α) : Option α :=
  match o with
  | .next s => some (f s)
  | .fault _ | .refused _ => none

/-- A Ready session (the end of program P1, with the cache given). -/
def ready (sel : Option Bank) : State :=
  { State.reset with
    sess := .ready, sel := sel, width := some .w8, idcode := some 0x2BA01477#32, linkOpen := true }

/-- The sequencer inside a command, with the bits the environment gives next. -/
def inside (p : Pos) (ph : Phase) (answers : List Bool) (s : State) : State :=
  { s with seq := .busy p ph, wireIn := answers }

/-- `readport dp, 0x4`. -/
def ctrlstatRead : Access := .dpRead 0x04#8

/-- Its transaction. -/
def ctrlstatTx : Tx := accessTx ctrlstatRead

/-- `writeport dp, 0x0, 0x1F`. -/
def abortWrite : Access := .dpWrite 0x00#8 0x0000001F#32

/-- The block awaits an acknowledgement of `readport dp, 0x4`, on the given attempt. -/
def awaiting (attempt : Nat) (answers : List Bool) : State :=
  inside (.port ctrlstatRead) (.q2 ctrlstatTx attempt) answers (ready none)

/-- The MEM-AP's bank. -/
def bank0 : Bank := ⟨0x00#8, 0#4⟩

/-! ## Well-formedness refuses what R99 (c) and (d) refuse -/

theorem test_wf_dp_unaligned : ¬ WellFormed (.readportDp 0x01#8) := by decide
theorem test_wf_dp_above_C : ¬ WellFormed (.readportDp 0x10#8) := by decide
theorem test_wf_dp_write_unaligned : ¬ WellFormed (.writeportDp 0x02#8 0#32) := by decide
theorem test_wf_dp_write_above_C : ¬ WellFormed (.writeportDp 0x80#8 0#32) := by decide
theorem test_wf_ap_unaligned : ¬ WellFormed (.readportAp 0x00#8 0x02#8) := by decide
theorem test_wf_ap_write_unaligned : ¬ WellFormed (.writeportAp 0x23#8 0xFD#8 0#32) := by decide
theorem test_wf_dp_last : WellFormed (.readportDp 0x0C#8) := by decide
theorem test_wf_ap_last : WellFormed (.readportAp 0xFF#8 0xFC#8) := by decide

/-! ## Decoding: a word of every row (spec/opcode_table.json, V12) -/

theorem test_decode_connect : decode std (.cmd 0x00000000#32 0#32 0#32) = .ok .connect := by decide
theorem test_decode_connect_ignores_fields : decode std (.cmd 0x00FF0000#32 0#32 0#32) = .ok .connect := by decide
theorem test_decode_disconnect : decode std (.cmd 0x00000001#32 0#32 0#32) = .ok .disconnect := by decide
theorem test_decode_reset : decode std (.cmd 0x00000002#32 0#32 0#32) = .ok .reset := by decide
theorem test_decode_invalidate : decode std (.cmd 0x00000003#32 0#32 0#32) = .ok .invalidate := by decide
theorem test_decode_readmem :
    decode std (.cmd 0x00000024#32 0x20000000#32 0#32) = .ok (.readmem .w32 0x20000000#32) := by decide
theorem test_decode_readmem_default :
    decode std (.cmd 0x00000034#32 0x00001000#32 0#32) = .ok (.readmem .session 0x00001000#32) := by decide
theorem test_decode_writemem :
    decode std (.cmd 0x00000005#32 0x00001003#32 0x000000AB#32) = .ok (.writemem .w8 0x00001003#32 0x000000AB#32) := by
  decide
theorem test_decode_writemem_16 :
    decode std (.cmd 0x00000015#32 0x00001002#32 0x0000ABCD#32) = .ok (.writemem .w16 0x00001002#32 0x0000ABCD#32) := by
  decide
theorem test_decode_readport_dp : decode std (.cmd 0x00000406#32 0#32 0#32) = .ok (.readportDp 0x04#8) := by decide
theorem test_decode_readport_ap : decode std (.cmd 0x0023FC46#32 0#32 0#32) = .ok (.readportAp 0x23#8 0xFC#8) := by decide
theorem test_decode_writeport_dp :
    decode std (.cmd 0x00000807#32 0#32 0x00000010#32) = .ok (.writeportDp 0x08#8 0x00000010#32) := by decide
theorem test_decode_writeport_ap :
    decode std (.cmd 0x00000447#32 0#32 0x20000000#32) = .ok (.writeportAp 0x00#8 0x04#8 0x20000000#32) := by decide
theorem test_decode_requests_dp :
    decode std (.req 0b10000001#8) = .ok .reqDpW0 ∧ decode std (.req 0b10101001#8) = .ok .reqDpW4 ∧
    decode std (.req 0b10110001#8) = .ok .reqDpW8 ∧ decode std (.req 0b10011001#8) = .ok .reqDpWC ∧
    decode std (.req 0b10100101#8) = .ok .reqDpR0 ∧ decode std (.req 0b10001101#8) = .ok .reqDpR4 ∧
    decode std (.req 0b10010101#8) = .ok .reqDpR8 ∧ decode std (.req 0b10111101#8) = .ok .reqDpRC := by decide
theorem test_decode_requests_ap :
    decode std (.req 0b10100011#8) = .ok .reqApW0 ∧ decode std (.req 0b10001011#8) = .ok .reqApW4 ∧
    decode std (.req 0b10010011#8) = .ok .reqApW8 ∧ decode std (.req 0b10111011#8) = .ok .reqApWC ∧
    decode std (.req 0b10000111#8) = .ok .reqApR0 ∧ decode std (.req 0b10101111#8) = .ok .reqApR4 ∧
    decode std (.req 0b10110111#8) = .ok .reqApR8 ∧ decode std (.req 0b10011111#8) = .ok .reqApRC := by decide
theorem test_decode_generic_request : decode std (.sendRequest 0b10010101#8) = .ok (.req false true 2#2) := by decide
theorem test_decode_acks :
    decode std (.ack 0b001#3) = .ok .ackOk ∧ decode std (.ack 0b010#3) = .ok .ackWait ∧
    decode std (.ack 0b100#3) = .ok .ackFault := by decide
theorem test_decode_undecodable_acks :
    decode std (.ack 0b000#3) = .ok .ackUndecodable000 ∧ decode std (.ack 0b011#3) = .ok .ackUndecodable011 ∧
    decode std (.ack 0b101#3) = .ok .ackUndecodable101 ∧ decode std (.ack 0b110#3) = .ok .ackUndecodable110 ∧
    decode std (.ack 0b111#3) = .ok .ackUndecodable111 := by decide
/-- `D 0 11111000… 1` of P1, transaction 2: turnaround 0, 0x1F, parity 1. -/
theorem test_decode_wdata : decode std (.wdata 0x20000003E#34) = .ok (.wdata 0x0000001F#32) := by decide
/-- `S 11101110001010000000010111010100 0 0` of P1, transaction 1. -/
theorem test_decode_rdata : decode std (.rdata 0x02BA01477#34) = .ok (.rdata 0x2BA01477#32 false false) := by decide
/-- Parity and turnaround are bits 32 and 33. -/
theorem test_decode_rdata_parity : decode std (.rdata 0x1AB000000#34) = .ok (.rdata 0xAB000000#32 true false) := by decide
theorem test_decode_line_reset : decode std (.lineReset (lsbf 0xFFFFFFFFFFFFFF#56)) = .ok .lineReset := by decide
theorem test_decode_jtag_to_swd : decode std (.jtagToSwd (lsbf 0xE79E#16)) = .ok .jtagToSwd := by decide
theorem test_decode_idle8 : decode std (.idle8 (lsbf 0x00#8)) = .ok .idle8 := by decide

/-- The illegal command words of V12, each by its reason. -/
theorem test_decode_illegal :
    decode std (.cmd 0x00000008#32 0#32 0#32) = .error .reservedOp ∧
    decode std (.cmd 0x0000000F#32 0#32 0#32) = .error .reservedOp ∧
    decode std (.cmd 0x00000080#32 0#32 0#32) = .error .reservedBits ∧
    decode std (.cmd 0x01000000#32 0#32 0#32) = .error .reservedBits ∧
    decode std (.cmd 0x00000106#32 0#32 0#32) = .error .unalignedReg ∧
    decode std (.cmd 0x00000246#32 0#32 0#32) = .error .unalignedReg ∧
    decode std (.cmd 0x00001006#32 0#32 0#32) = .error .noSuchDpOffset ∧
    decode std (.cmd 0x00001007#32 0#32 0#32) = .error .noSuchDpOffset := by decide
theorem test_decode_readport_ap_bank_1 : decode std (.cmd 0x00001046#32 0#32 0#32) = .ok (.readportAp 0x00#8 0x10#8) := by
  decide
theorem test_decode_bad_frames :
    decode std (.req 0x80#8) = .error .badFraming ∧ decode std (.req 0xA1#8) = .error .badParity ∧
    decode std (.wdata 0x000000001#34) = .error .badTurnaround ∧ decode std (.wdata 0x000000002#34) = .error .badParity ∧
    decode std (.jtagToSwd (lsbf 0xE79F#16)) = .error .badSequence := by decide

/-- A word of the opcode table, numbered as the table numbers it. -/
theorem test_decode_table_words :
    decodeTableWord 32 0x00000046 = some (.readportAp 0x00#8 0x00#8) ∧ decodeTableWord 8 0xA9 = some .reqDpW4 ∧
    decodeTableWord 8 0x3 = some .ackUndecodable011 ∧ decodeTableWord 16 0xE79E = some .jtagToSwd ∧
    decodeTableWord 56 0xFFFFFFFFFFFFFF = some .lineReset ∧
    decodeTableWord 40 0x2BA01477 = some (.rdata 0x2BA01477#32 false false) := by decide

/-- `step` runs a placed word: a placed IDCODE request is driven (P1). -/
theorem test_step_placed_word :
    look (step (State.reset.withFetchWord 8 0xA5)) (·.trace) = some (drives (bits [1, 0, 1, 0, 0, 1, 0, 1])) := by
  decide

/-! ## Commands (V13, P1 to P3, R203 to R212) -/

theorem test_connect_opens_link :
    look (exec .connect State.reset) (fun s => (s.sess, s.linkOpen, s.trace)) =
      some (.connecting, true, [Event.linkConnect]) := by decide
theorem test_connect_in_ready : look (exec .connect (ready none)) (·.rsps) = some [⟨0x08#8, 0#32⟩] := by decide
theorem test_disconnect_in_disconnected :
    look (exec .disconnect State.reset) (fun s => (s.rsps, s.trace)) = some ([⟨0x00#8, 0#32⟩], []) := by decide
theorem test_disconnect_line_reset_closes :
    look (step (inside (.disc .command) (.line .lineReset) [] (ready (some bank0))))
      (fun s => (s.sess, s.sel, s.width, s.idcode)) = some (.disconnected, none, none, none) := by decide
theorem test_reset_in_disconnected_is_connect :
    look (exec .reset State.reset) (fun s => (s.sess, s.trace)) = some (.connecting, [Event.linkConnect]) := by decide
theorem test_reset_second_half :
    look (step (inside (.disc .reset) (.line .lineReset) [] (ready none))) (fun s => (s.sess, s.trace.drop 56)) =
      some (.connecting, [Event.linkDisconnect, Event.linkConnect]) := by decide
theorem test_invalidate : look (exec .invalidate (ready (some bank0))) (fun s => (s.sel, s.width, s.sess)) =
    some (none, some .w8, .ready) := by decide
theorem test_readmem_not_ready : look (exec (.readmem .w32 0#32) State.reset) (·.rsps) = some [⟨0x07#8, 0#32⟩] := by
  decide
/-- P2: `readmem.32` begins with CSW <- 0x00000002 on a cache hit. -/
theorem test_readmem_begins_with_csw :
    look (exec (.readmem .w32 0x1000#32) (ready (some bank0))) (·.seq) =
      some (.busy (.m2 ⟨false, .w32, 0x1000#32, 0#32⟩) (.issue ⟨true, false, 0#2, 0x2#32, .access⟩)) := by decide
/-- P1, transaction 8: with the cache empty the SELECT write comes first. -/
theorem test_writemem_selects_on_a_miss :
    look (exec (.writemem .w8 0x1003#32 0xAB#32) (ready none)) (·.seq) =
      some (.busy (.m2 ⟨true, .w8, 0x1003#32, 0xAB#32⟩)
        (.issue ⟨false, false, 2#2, 0x0#32, .select bank0 false 0#2 0x0#32⟩)) := by decide
/-- P2: `writemem.8 0x1003, 0xAB` moves 0xAB000000 to DRW. -/
theorem test_writemem_drw :
    look (step (inside (.m3 ⟨true, .w8, 0x1003#32, 0xAB#32⟩) (.data ⟨true, false, 1#2, 0x1003#32, .access⟩) []
      (ready (some bank0)))) (·.seq) =
      some (.busy (.m4 ⟨true, .w8, 0x1003#32, 0xAB#32⟩) (.issue ⟨true, false, 3#2, 0xAB000000#32, .access⟩)) := by
  decide +kernel
theorem test_readport_dp_offset :
    look (exec (.readportDp 0x0C#8) (ready none)) (·.seq) =
      some (.busy (.port (.dpRead 0x0C#8)) (.issue ⟨false, true, 3#2, 0#32, .access⟩)) := by decide
theorem test_readport_dp_not_ready : look (exec (.readportDp 0x00#8) State.reset) (·.status) = some 0x07#8 := by decide
/-- P3, command 3: SELECT <- 0x00000010. -/
theorem test_readport_ap_bank_1 :
    look (exec (.readportAp 0x00#8 0x10#8) (ready (some bank0))) (fun s => (s.sel, s.seq)) =
      some (none, .busy (.port (.apRead 0x00#8 0x10#8))
        (.issue ⟨false, false, 2#2, 0x00000010#32, .select ⟨0x00#8, 1#4⟩ true 0#2 0#32⟩)) := by decide
/-- P3, command 2: a hit. -/
theorem test_readport_ap_hit :
    look (exec (.readportAp 0x00#8 0x04#8) (ready (some bank0))) (·.seq) =
      some (.busy (.port (.apRead 0x00#8 0x04#8)) (.issue ⟨true, true, 1#2, 0#32, .access⟩)) := by decide
/-- V9, last row: a direct SELECT write empties the cache. -/
theorem test_writeport_dp_select :
    look (exec (.writeportDp 0x08#8 0x10#32) (ready (some ⟨0x00#8, 1#4⟩))) (·.sel) = some none := by decide
theorem test_writeport_dp_not_ready : look (exec (.writeportDp 0x00#8 0x4#32) State.reset) (·.rsps) =
    some [⟨0x07#8, 0#32⟩] := by decide
/-- V8: access port 0x23, bank 0xF. -/
theorem test_writeport_ap_select_word :
    look (exec (.writeportAp 0x23#8 0xF8#8 0x5#32) (ready none)) (·.seq) =
      some (.busy (.port (.apWrite 0x23#8 0xF8#8 0x5#32))
        (.issue ⟨false, false, 2#2, 0x230000F0#32, .select ⟨0x23#8, 0xF#4⟩ false 2#2 0x5#32⟩)) := by decide
/-- V13: CMD 0x00000106 in Disconnected, legality before state. -/
theorem test_illegal_command :
    look (step { State.reset with cmds := [⟨0x00000106#32, 0#32, 0#32⟩] }) (fun s => (s.rsps, s.trace, s.cmds)) =
      some ([⟨0x09#8, 0#32⟩], [], []) := by decide

/-! ## Wire rows (the request table of R73, V14, P1, P4) -/

theorem test_request_dp_write_rows :
    look (exec .reqDpW0 State.reset) (·.trace) = some (drives (bits [1, 0, 0, 0, 0, 0, 0, 1])) ∧
    look (exec .reqDpW4 State.reset) (·.trace) = some (drives (bits [1, 0, 0, 1, 0, 1, 0, 1])) ∧
    look (exec .reqDpW8 State.reset) (·.trace) = some (drives (bits [1, 0, 0, 0, 1, 1, 0, 1])) ∧
    look (exec .reqDpWC State.reset) (·.trace) = some (drives (bits [1, 0, 0, 1, 1, 0, 0, 1])) := by decide
theorem test_request_dp_read_rows :
    look (exec .reqDpR0 State.reset) (·.trace) = some (drives (bits [1, 0, 1, 0, 0, 1, 0, 1])) ∧
    look (exec .reqDpR4 State.reset) (·.trace) = some (drives (bits [1, 0, 1, 1, 0, 0, 0, 1])) ∧
    look (exec .reqDpR8 State.reset) (·.trace) = some (drives (bits [1, 0, 1, 0, 1, 0, 0, 1])) ∧
    look (exec .reqDpRC State.reset) (·.trace) = some (drives (bits [1, 0, 1, 1, 1, 1, 0, 1])) := by decide
theorem test_request_ap_write_rows :
    look (exec .reqApW0 State.reset) (·.trace) = some (drives (bits [1, 1, 0, 0, 0, 1, 0, 1])) ∧
    look (exec .reqApW4 State.reset) (·.trace) = some (drives (bits [1, 1, 0, 1, 0, 0, 0, 1])) ∧
    look (exec .reqApW8 State.reset) (·.trace) = some (drives (bits [1, 1, 0, 0, 1, 0, 0, 1])) ∧
    look (exec .reqApWC State.reset) (·.trace) = some (drives (bits [1, 1, 0, 1, 1, 1, 0, 1])) := by decide
theorem test_request_ap_read_rows :
    look (exec .reqApR0 State.reset) (·.trace) = some (drives (bits [1, 1, 1, 0, 0, 0, 0, 1])) ∧
    look (exec .reqApR4 State.reset) (·.trace) = some (drives (bits [1, 1, 1, 1, 0, 1, 0, 1])) ∧
    look (exec .reqApR8 State.reset) (·.trace) = some (drives (bits [1, 1, 1, 0, 1, 1, 0, 1])) ∧
    look (exec .reqApRC State.reset) (·.trace) = some (drives (bits [1, 1, 1, 1, 1, 0, 0, 1])) := by decide
theorem test_send_request_begins_attempt_1 :
    look (step (inside (.port ctrlstatRead) (.issue ctrlstatTx) [] (ready none))) (fun s => (s.seq, s.trace)) =
      some (.busy (.port ctrlstatRead) (.q1 ctrlstatTx 1), []) := by decide
/-- `S 0100` of P1: the data phase is next. -/
theorem test_ack_ok : look (step (awaiting 1 (bits [0, 1, 0, 0]))) (fun s => (s.seq, s.trace)) =
    some (.busy (.port ctrlstatRead) (.data ctrlstatTx), samples (bits [0, 1, 0, 0])) := by decide
/-- `S 0010 S 0` of P4: attempt 2 becomes attempt 3. -/
theorem test_ack_wait_retries : look (step (awaiting 2 (bits [0, 0, 1, 0, 0]))) (fun s => (s.seq, s.trace)) =
    some (.busy (.port ctrlstatRead) (.q1 ctrlstatTx 3), samples (bits [0, 0, 1, 0, 0])) := by decide
/-- P4 (b): the third WAIT is BusyError, with no turnaround read. -/
theorem test_ack_wait_bound : look (step (awaiting 3 (bits [0, 0, 1, 0, 0]))) (fun s => (s.rsps, s.wireIn)) =
    some ([⟨0x01#8, 0#32⟩], [false]) := by decide
/-- V14, first row: the ABORT write of 0x00000004 is next. -/
theorem test_ack_fault : look (step (awaiting 1 (bits [0, 0, 0, 1]))) (fun s => (s.seq, s.rsps)) =
    some (.busy (.port ctrlstatRead) (.issue ⟨false, false, 0#2, 0x00000004#32, .clear⟩), []) := by decide
/-- V14, second row: FAULT to the ABORT write is FaultError, with no second ABORT write. -/
theorem test_ack_fault_of_abort_write :
    look (step (inside (.port ctrlstatRead) (.q2 clearTx 1) (bits [0, 0, 0, 1]) (ready none))) (·.rsps) =
      some [⟨0x02#8, 0#32⟩] := by decide
/-- V14: 0b111 is NoAck; the other four undecodable patterns of R76 likewise. -/
theorem test_ack_undecodable :
    look (step (awaiting 1 (bits [0, 1, 1, 1]))) (·.rsps) = some [⟨0x03#8, 0#32⟩] ∧
    look (step (awaiting 1 (bits [0, 0, 0, 0]))) (·.rsps) = some [⟨0x03#8, 0#32⟩] ∧
    look (step (awaiting 1 (bits [0, 1, 1, 0]))) (·.rsps) = some [⟨0x03#8, 0#32⟩] ∧
    look (step (awaiting 1 (bits [0, 1, 0, 1]))) (·.rsps) = some [⟨0x03#8, 0#32⟩] ∧
    look (step (awaiting 1 (bits [0, 0, 1, 1]))) (·.rsps) = some [⟨0x03#8, 0#32⟩] := by decide
/-- V13: NoAck to the IDCODE read of a CONNECT leads to the disconnect sequence. -/
theorem test_ack_undecodable_in_connect :
    look (step (inside .c3 (.q2 ⟨false, true, 0#2, 0#32, .access⟩ 1) (bits [0, 1, 1, 1]) State.reset)) (·.seq) =
      some (.busy (.disc (.connectFailed .noAck)) (.line .lineReset)) := by decide
/-- The example of R122: turnaround 0, five ones, 27 zeros, parity 1. -/
theorem test_wdata :
    look (step (inside (.port abortWrite) (.data (accessTx abortWrite)) [] (ready none))) (fun s => (s.trace, s.rsps)) =
      some (drives (bits ([0, 1, 1, 1, 1, 1] ++ List.replicate 27 0 ++ [1])), [⟨0x00#8, 0#32⟩]) := by
  decide +kernel
/-- P1, transaction 1, as a port read. -/
theorem test_rdata :
    look (exec (.rdata 0x2BA01477#32 false true) (inside (.port (.dpRead 0x00#8))
      (.data ⟨false, true, 0#2, 0#32, .access⟩) [] (ready none))) (·.rsps) = some [⟨0x00#8, 0x2BA01477#32⟩] := by decide
/-- V14, last row: 32 ones with parity bit 1 is ParityError. -/
theorem test_rdata_bad_parity :
    look (step (inside (.port ctrlstatRead) (.data ctrlstatTx) (List.replicate 33 true ++ [false]) (ready none)))
      (·.rsps) = some [⟨0x04#8, 0#32⟩] := by decide
theorem test_line_reset :
    look (step (inside .c1 (.line .lineReset) [] State.reset)) (fun s => (s.trace, s.seq)) =
      some (List.replicate 56 (Event.drive true), .busy .c2Switch (.line .jtagToSwd)) := by decide
/-- P1, step C2. -/
theorem test_jtag_to_swd :
    look (step (inside .c2Switch (.line .jtagToSwd) [] State.reset)) (·.trace) =
      some (drives (bits [0, 1, 1, 1, 1, 0, 0, 1, 1, 1, 1, 0, 0, 1, 1, 1])) := by decide
theorem test_idle8 :
    look (step (inside .c2Idle (.line .idle8) [] State.reset)) (fun s => (s.trace, s.seq)) =
      some (List.replicate 8 (Event.drive false), .busy .c3 (.issue ⟨false, true, 0#2, 0#32, .access⟩)) := by decide

/-! ## Operand assembly (V1, V6 to V8, V10, V11) -/

theorem test_parity32 : parity32 0x00000000#32 = false ∧ parity32 0xFFFFFFFF#32 = false ∧
    parity32 0x80000000#32 = true ∧ parity32 0x00000001#32 = true ∧ parity32 0x2BA01477#32 = false := by decide
theorem test_parity4 : parity4 false true false false = true ∧ parity4 true true true true = false := by decide
theorem test_bitrev : bitrev (bits [1, 1, 0, 0]) = bits [0, 0, 1, 1] := by decide
theorem test_lanes_write : drwWord .w8 0x1003#32 0xAB#32 = 0xAB000000#32 ∧ drwWord .w8 0x1002#32 0x1AB#32 = 0x00AB0000#32 ∧
    drwWord .w16 0x1003#32 0x1234#32 = 0x12340000#32 ∧ drwWord .w16 0x1001#32 0x1234#32 = 0x00001234#32 ∧
    drwWord .w32 0x1003#32 0x12345678#32 = 0x12345678#32 := by decide
theorem test_lanes_read : laneOf .w8 0xFFFFFFFF#32 0x44332211#32 = 0x44#32 ∧ laneOf .w8 0x1001#32 0x44332211#32 = 0x22#32 ∧
    laneOf .w16 0x1003#32 0x44332211#32 = 0x4433#32 ∧ laneOf .w32 0x1003#32 0x44332211#32 = 0x44332211#32 := by decide
/-- V6 and the examples of R171: the shifts at the boundary addresses of a word. -/
theorem test_shifts : shift .w8 0x1000#32 = 0 ∧ shift .w8 0x1003#32 = 24 ∧ shift .w8 0xFFFFFFFF#32 = 24 ∧
    shift .w16 0x1001#32 = 0 ∧ shift .w16 0x1002#32 = 16 ∧ shift .w16 0x1003#32 = 16 ∧ shift .w32 0x1003#32 = 0 := by
  decide
/-- Other lengths of the fixed sequences (R6, U6). -/
theorem test_line_lengths_are_parameters :
    decode { std with nLineReset := 50 } (.lineReset (ones 50)) = .ok .lineReset ∧
    decode { std with nLineReset := 50 } (.lineReset (ones 56)) = .error .badSequence ∧
    look (step { inside .c2Idle (.line .idle8) [] State.reset with par := { std with nIdleAfterSwitch := 2 } })
      (·.trace) = some [Event.drive false, Event.drive false] := by decide
theorem test_csw_values : cswValue Config.defaultParams .w8 = 0#32 ∧ cswValue Config.defaultParams .w16 = 1#32 ∧
    cswValue Config.defaultParams .w32 = 2#32 ∧
    cswValue { Config.defaultParams with cswFixed := 0x23000000#32 } .w32 = 0x23000002#32 := by decide
theorem test_select_words : selectWord ⟨0#8, 1#4⟩ = 0x10#32 ∧ selectWord ⟨1#8, 0#4⟩ = 0x01000000#32 ∧
    selectWord ⟨0xFF#8, 0xF#4⟩ = 0xFF0000F0#32 := by decide
theorem test_register_address : bankOf 0#8 0xFC#8 = ⟨0#8, 0xF#4⟩ ∧ a32Of 0xFC#8 = 3#2 ∧ a32Of 0xF8#8 = 2#2 ∧
    bankOf 0#8 0x14#8 = ⟨0#8, 1#4⟩ ∧ a32Of 0x14#8 = 1#2 := by decide
theorem test_size_accepted : sizeAccepted .w8 0x40#32 = true ∧ sizeAccepted .w8 0x2#32 = false ∧
    sizeAccepted .w16 0x41#32 = true ∧ sizeAccepted .w16 0x2#32 = false := by decide
theorem test_power_up_acked : powerUpAcked 0xA0000000#32 = true ∧ powerUpAcked 0xD0000F00#32 = false ∧
    powerUpAcked 0x70000F00#32 = false := by decide
/-- V11, last row: a bound of 0 reads nothing. -/
theorem test_power_up_bound_0 :
    (startPoll 0 { State.reset with par := { Config.defaultParams with powerupPollBound := some 0 } }).seq =
      .busy (.disc (.connectFailed .powerUpTimeout)) (.line .lineReset) := by decide

/-! ## Witnesses: each statement's hypotheses are met by a concrete state -/

/-- A Ready session whose environment gives `answers` next. -/
def readyWith (sel : Option Bank) (answers : List Bool) : State := { ready sel with wireIn := answers }

/-- The parameters with another `ACK_ERR_TRN`. -/
def withErrTrn (s : State) : State := { s with par := { s.par with ackErrTrn := 1 } }

/-- The session meets the invariant of a run in Ready too. -/
theorem ready_meets_invariant : RunInvariant (ready (some bank0)) :=
  ⟨by decide, by simp [sessionOk, ready], rfl, trivial, by simp [latchesOk, ready, statusLegal, State.reset]⟩

/-- And at Q1 of the transfer of `readport ap0, 0xFC` with the bank in the cache. -/
def apAtQ1 : State :=
  inside (.port (.apRead 0x00#8 0xFC#8)) (.q1 (accessTx (.apRead 0x00#8 0xFC#8)) 3) [] (ready (some ⟨0x00#8, 0xF#4⟩))

theorem apAtQ1_meets_invariant : RunInvariant apAtQ1 := by
  refine ⟨by decide, by simp [sessionOk, apAtQ1, inside, ready], rfl, ?_,
    by simp [latchesOk, apAtQ1, inside, ready, statusLegal, State.reset]⟩
  refine ⟨⟨⟨_, rfl, ?_⟩, by decide, by decide⟩, trivial⟩
  simp [txOf, accessTx, accessBank, writesSelect, bankOf, apAtQ1, inside, ready]

/-- In the data phase of a SELECT write. -/
def selectInData : State :=
  inside (.port (.apRead 0x00#8 0x10#8)) (.data (selectTx ⟨0x00#8, 1#4⟩ true 0#2 0#32)) [] (ready none)

theorem selectInData_meets_invariant : RunInvariant selectInData := by
  refine ⟨by decide, by simp [sessionOk, selectInData, inside, ready], rfl, ?_,
    by simp [latchesOk, selectInData, inside, ready, statusLegal, State.reset]⟩
  refine ⟨⟨_, rfl, ?_⟩, trivial⟩
  simp [txOf, accessTx, accessBank, selectTx, bankOf, selectInData, inside, ready, a32Of]

theorem witness_StepKeepsRunInvariant :
    RunInvariant apAtQ1 ∧ ∃ t, step apAtQ1 = .next t := ⟨apAtQ1_meets_invariant, _, rfl⟩

theorem witness_BlockResetAbandonsTheCommand :
    ({ awaiting 1 [] with resetIn := [true, false] } : State).resetIn = true :: [false] := rfl

/-- Codes other than those of R6. -/
def otherCodes : Params := { std with ackOk := 0b110#3, ackWait := 0b000#3, ackFault := 0b011#3 }

theorem witness_DecodeOfEncodeIsTheOperation :
    otherCodes.distinctAcks ∧ std.distinctAcks ∧ WellFormed (.writeportDp 0x0C#8 0xFFFFFFFF#32) := by decide

/-- With codes other than those of R6, 0b001 is the first of the five undecodable patterns (R76; log entry 7). -/
theorem test_ack_codes_are_parameters :
    decode otherCodes (.ack 0b110#3) = .ok .ackOk ∧ decode otherCodes (.ack 0b001#3) = .ok .ackUndecodable000 ∧
    look (step { awaiting 1 (bits [0, 0, 1, 1]) with par := otherCodes }) (·.seq) =
      some (.busy (.port ctrlstatRead) (.data ctrlstatTx)) := by decide

theorem witness_DecodedOperationsAreWellFormed :
    decode std (.cmd 0x00000C07#32 0#32 0xFFFFFFFF#32) = .ok (.writeportDp 0x0C#8 0xFFFFFFFF#32) := by decide

theorem witness_WireWordsHaveOneMeaning :
    otherCodes.distinctAcks ∧ (∀ c a w, Frame.rdata 0x3FFFFFFFF#34 ≠ .cmd c a w) ∧
      decode std (.rdata 0x3FFFFFFFF#34) = .ok (.rdata 0xFFFFFFFF#32 true true) :=
  ⟨by decide, fun _ _ _ h => (nomatch h), by decide⟩

theorem witness_CommandRejectedExactlyWhenIllegal :
    illegalWord 0x00000008#32 ∧ illegalWord 0x00000080#32 ∧ illegalWord 0x01000000#32 ∧ illegalWord 0x00000106#32 ∧
      illegalWord 0x00001007#32 ∧ ¬ illegalWord 0x00001046#32 ∧ ¬ illegalWord 0x00FF0007#32 := by
  refine ⟨?_, ?_, ?_, ?_, ?_, ?_, ?_⟩ <;> (unfold illegalWord; decide)

theorem witness_StepRunsThePresentedCommand :
    ∃ s : State, ∃ c rest i, s.seq = .idle ∧ s.cmds = c :: rest ∧ decode s.par (.cmd c.cmd c.addr c.wdata) = .ok i ∧
      s.resetIn = [] ∧ ({ s with resetIn := [false, true] } : State).resetIn = false :: [true] :=
  ⟨{ State.reset with cmds := [⟨0x00000001#32, 0#32, 0#32⟩] }, _, _, .disconnect, rfl, rfl, rfl, rfl, rfl⟩

/-- A clause each: the three sequences, the call, Q1, Q2, a write's and a read's data phase. -/
theorem witness_StepRunsTheWireFrame :
    (inside .c1 (.line .lineReset) [] State.reset).seq = .busy .c1 (.line .lineReset) ∧
    (inside .c2Switch (.line .jtagToSwd) [] State.reset).seq = .busy .c2Switch (.line .jtagToSwd) ∧
    (inside .c2Idle (.line .idle8) [] State.reset).seq = .busy .c2Idle (.line .idle8) ∧
    (inside .c3 (.issue ctrlstatTx) [] State.reset).seq = .busy .c3 (.issue ctrlstatTx) ∧
    (inside .c3 (.q1 ctrlstatTx 1) [] State.reset).seq = .busy .c3 (.q1 ctrlstatTx 1) ∧
    ((awaiting 3 (ackBits true 0b111#3)).seq = .busy (.port ctrlstatRead) (.q2 ctrlstatTx 3) ∧
      (awaiting 3 (ackBits true 0b111#3)).wireIn = ackBits true 0b111#3 ++ []) ∧
    ((inside .c4 (.data clearTx) [] State.reset).seq = .busy .c4 (.data clearTx) ∧ clearTx.rnw = false) ∧
    ((inside .c3 (.data ctrlstatTx) (lsbf 0xFFFFFFFF#32 ++ [true, true] ++ []) State.reset).seq =
        .busy .c3 (.data ctrlstatTx) ∧ ctrlstatTx.rnw = true ∧
      (inside .c3 (.data ctrlstatTx) (lsbf 0xFFFFFFFF#32 ++ [true, true] ++ []) State.reset).wireIn =
        lsbf 0xFFFFFFFF#32 ++ [true, true] ++ []) ∧
    (awaiting 3 (ackBits true 0b111#3)).resetIn = [] :=
  ⟨rfl, rfl, rfl, rfl, rfl, ⟨rfl, by simp [awaiting, inside]⟩, ⟨rfl, rfl⟩, ⟨rfl, rfl, rfl⟩, rfl⟩

/-- A clause each: a read packet and an acknowledgement with no listed bit and with one, a retry, the last WAIT, and an error. -/
theorem witness_SampledBitsAreFree :
    ((inside (.port ctrlstatRead) (.data ctrlstatTx) [true] (ready none)).seq =
        .busy (.port ctrlstatRead) (.data ctrlstatTx) ∧ ctrlstatTx.rnw = true ∧
      (inside (.port ctrlstatRead) (.data ctrlstatTx) [true] (ready none)).resetIn = []) ∧
    ((awaiting 2 []).resetIn = [] ∧ (awaiting 2 []).seq = .busy (.port ctrlstatRead) (.q2 ctrlstatTx 2) ∧
      2 < (awaiting 2 []).par.waitRetryBound ∧ (awaiting 3 []).par.waitRetryBound ≤ 3 ∧ ctrlstatTx.role ≠ .clear ∧
      0b111#3 ≠ std.ackOk ∧ 0b111#3 ≠ std.ackWait ∧ 0b111#3 ≠ std.ackFault) ∧
    (supplied 4 (awaiting 1 [true])).length = 4 ∧ (supplied 4 (awaiting 1 [true])).head? = some true := by
  refine ⟨by decide, by decide, by simp [supplied, awaiting, inside], by simp [supplied, awaiting, inside]⟩

theorem witness_IdleBlockWaits : (ready none).resetIn = [] ∧ (ready none).seq = .idle ∧ (ready none).cmds = [] :=
  ⟨rfl, rfl, rfl⟩

theorem witness_IllegalCommandChangesOnlyLatches :
    ∃ s : State, ∃ c rest, s.resetIn = [] ∧ s.seq = .idle ∧ s.cmds = c :: rest ∧ illegalWord c.cmd :=
  ⟨{ ready none with cmds := [⟨0x0000000F#32, 0#32, 0#32⟩] }, _, _, rfl, rfl, rfl, by unfold illegalWord; decide⟩

/-- Both clauses: CONNECT in Ready, the other commands in Disconnected. -/
theorem witness_RefusedCommandsChangeOnlyLatches :
    (ready none).seq = .idle ∧ (ready none).sess ≠ .disconnected ∧ State.reset.seq = .idle ∧ State.reset.sess ≠ .ready ∧
      WellFormed (.readportDp 0x0C#8) ∧ WellFormed (.readportAp 0xFF#8 0xFC#8) ∧ WellFormed (.writeportDp 0x00#8 0#32) ∧
      WellFormed (.writeportAp 0x00#8 0x00#8 0#32) := by decide

theorem witness_ConnectReachesReadyWithWidth8 :
    ∃ (s : State) (id poll csw : Word) (t u : Nat → Bool) (rest : List Bool),
      s.seq = .idle ∧ s.sess = .disconnected ∧ s.resetIn = [] ∧ s.par.powerupPollBound ≠ some 0 ∧
      poll.getLsbD 31 = true ∧ poll.getLsbD 29 = true ∧ csw.extractLsb' 0 3 = 0b000#3 ∧
      s.wireIn = readAnswer s.par (t 1) id (u 1) ++ ackBits (t 2) s.par.ackOk ++ ackBits (t 3) s.par.ackOk ++
        ackBits (t 4) s.par.ackOk ++ ackBits (t 5) s.par.ackOk ++ ackBits (t 6) s.par.ackOk ++
        readAnswer s.par (t 7) poll (u 7) ++ ackBits (t 8) s.par.ackOk ++ ackBits (t 9) s.par.ackOk ++
        readAnswer s.par (t 10) csw (u 10) ++ rest :=
  ⟨{ State.reset with
      par := { Config.defaultParams with powerupPollBound := some 1 }
      wireIn := readAnswer std true 0x2BA01477#32 true ++ ackBits true std.ackOk ++ ackBits true std.ackOk ++
        ackBits true std.ackOk ++ ackBits true std.ackOk ++ ackBits true std.ackOk ++
        readAnswer std true 0xA0000000#32 true ++ ackBits true std.ackOk ++ ackBits true std.ackOk ++
        readAnswer std true 0x40#32 true ++ [] },
    0x2BA01477#32, 0xA0000000#32, 0x40#32, fun _ => true, fun _ => true, [], rfl, rfl, rfl, by decide, by decide,
    by decide, by decide, rfl⟩

/-- Both outcomes: a 16-bit read-back that holds its code, and one that does not. -/
theorem witness_NegotiationFallsBackTo16And32 (c16 : Word) (_ : c16 = 0x1#32 ∨ c16 = 0x2#32) :
    ∃ (s : State) (c8 : Word) (t u : Nat → Bool) (rest : List Bool),
      s.seq = .busy .n1 (.issue ⟨false, false, 2#2, selectWord ⟨s.par.memapIndex, 0#4⟩,
        .select ⟨s.par.memapIndex, 0#4⟩ false 0#2 (cswValue s.par .w8)⟩) ∧
      s.resetIn = [] ∧ c8.extractLsb' 0 3 ≠ 0b000#3 ∧
      s.wireIn = ackBits (t 0) s.par.ackOk ++ ackBits (t 1) s.par.ackOk ++ readAnswer s.par (t 2) c8 (u 2) ++
        ackBits (t 3) s.par.ackOk ++ readAnswer s.par (t 4) c16 (u 4) ++ rest :=
  ⟨inside .n1 (.issue ⟨false, false, 2#2, selectWord bank0, .select bank0 false 0#2 (cswValue std .w8)⟩)
      (ackBits true std.ackOk ++ ackBits true std.ackOk ++ readAnswer std true 0x2#32 true ++
        ackBits true std.ackOk ++ readAnswer std true c16 true ++ []) State.reset,
    0x2#32, fun _ => true, fun _ => true, [], rfl, rfl, by decide, rfl⟩

/-- The session commands' hypotheses: an idle block in Ready and in Disconnected (DisconnectClosesTheSession,
ResetIsDisconnectThenConnect, ConnectOpensTheLink, InvalidateEmptiesOnlyTheSelectCache). -/
theorem witness_session_commands :
    (ready (some bank0)).seq = .idle ∧ (ready (some bank0)).resetIn = [] ∧ (ready (some bank0)).sess ≠ .disconnected ∧
      State.reset.seq = .idle ∧ State.reset.resetIn = [] ∧ State.reset.sess = .disconnected := by decide

theorem witness_WidthCodesDecode : (ready none).width = some .w8 := rfl

/-- The memory and port commands' common hypotheses, the cache holding the bank or another, with any answers. -/
theorem witness_ready (answers : List Bool) :
    (∃ s : State, s.seq = .idle ∧ s.sess = .ready ∧ s.resetIn = [] ∧ s.par = std ∧ s.sel = some ⟨s.par.memapIndex, 0#4⟩ ∧
      s.wireIn = answers) ∧
    (∃ s : State, s.seq = .idle ∧ s.sess = .ready ∧ s.resetIn = [] ∧ s.par = std ∧ s.sel ≠ some ⟨s.par.memapIndex, 0#4⟩ ∧
      s.wireIn = answers) :=
  ⟨⟨readyWith (some bank0) answers, rfl, rfl, rfl, rfl, rfl, rfl⟩,
    ⟨readyWith (some ⟨0x00#8, 1#4⟩) answers, rfl, rfl, rfl, rfl, by simp [readyWith, ready], rfl⟩⟩

theorem witness_WritememWritesCswTarDrw :
    (∃ s : State, s.seq = .idle ∧ s.sess = .ready ∧ s.resetIn = [] ∧ s.par = std ∧ s.sel = some ⟨s.par.memapIndex, 0#4⟩ ∧
      s.wireIn = ackBits true std.ackOk ++ ackBits true std.ackOk ++ ackBits true std.ackOk ++ []) ∧
    (∃ s : State, s.seq = .idle ∧ s.sess = .ready ∧ s.resetIn = [] ∧ s.par = std ∧ s.sel ≠ some ⟨s.par.memapIndex, 0#4⟩ ∧
      s.wireIn = ackBits true std.ackOk ++ ackBits true std.ackOk ++ ackBits true std.ackOk ++
        ackBits true std.ackOk ++ []) :=
  ⟨(witness_ready _).1, (witness_ready _).2⟩

theorem witness_ReadmemReadsThroughDrw :
    (∃ s : State, s.seq = .idle ∧ s.sess = .ready ∧ s.resetIn = [] ∧ s.par = std ∧ s.sel = some ⟨s.par.memapIndex, 0#4⟩ ∧
      s.wireIn = ackBits true std.ackOk ++ ackBits true std.ackOk ++ readAnswer std true 0x44332211#32 true ++ []) ∧
    (∃ s : State, s.seq = .idle ∧ s.sess = .ready ∧ s.resetIn = [] ∧ s.par = std ∧ s.sel ≠ some ⟨s.par.memapIndex, 0#4⟩ ∧
      s.wireIn = ackBits true std.ackOk ++ ackBits true std.ackOk ++ ackBits true std.ackOk ++
        readAnswer std true 0x44332211#32 true ++ []) :=
  ⟨(witness_ready _).1, (witness_ready _).2⟩

theorem witness_ReadportDpIsOneTransaction :
    ∃ s : State, s.seq = .idle ∧ s.sess = .ready ∧ s.resetIn = [] ∧ WellFormed (.readportDp 0x0C#8) ∧
      s.wireIn = readAnswer s.par true 0xFFFFFFFF#32 true ++ [] :=
  ⟨readyWith none (readAnswer std true 0xFFFFFFFF#32 true ++ []), rfl, rfl, rfl, by decide, rfl⟩

/-- Offset 0x8, where the cache is emptied, and 0xC, where it is not. -/
theorem witness_WriteportDpIsOneTransaction :
    ∃ s : State, s.seq = .idle ∧ s.sess = .ready ∧ s.resetIn = [] ∧ WellFormed (.writeportDp 0x08#8 0#32) ∧
      WellFormed (.writeportDp 0x0C#8 0#32) ∧ s.wireIn = ackBits true s.par.ackOk ++ [] :=
  ⟨readyWith (some bank0) (ackBits true std.ackOk ++ []), rfl, rfl, rfl, by decide, by decide, rfl⟩

theorem witness_ReadportApSelectsThenReads :
    WellFormed (.readportAp 0x00#8 0x0C#8) ∧
    (∃ s : State, s.seq = .idle ∧ s.sess = .ready ∧ s.resetIn = [] ∧
      s.sel = some ⟨0x00#8, (0x0C#8).extractLsb' 4 4⟩ ∧ s.wireIn = readAnswer s.par true 0#32 false ++ []) ∧
    (∃ s : State, s.seq = .idle ∧ s.sess = .ready ∧ s.resetIn = [] ∧
      s.sel ≠ some ⟨0x00#8, (0x0C#8).extractLsb' 4 4⟩ ∧
      s.wireIn = ackBits true s.par.ackOk ++ readAnswer s.par true 0#32 false ++ []) :=
  ⟨by decide,
    ⟨readyWith (some bank0) (readAnswer std true 0#32 false ++ []), rfl, rfl, rfl, rfl, rfl⟩,
    ⟨readyWith none (ackBits true std.ackOk ++ readAnswer std true 0#32 false ++ []), rfl, rfl, rfl, by decide, rfl⟩⟩

theorem witness_WriteportApSelectsThenWrites :
    WellFormed (.writeportAp 0xFF#8 0xFC#8 0#32) ∧
    (∃ s : State, s.seq = .idle ∧ s.sess = .ready ∧ s.resetIn = [] ∧
      s.sel = some ⟨0xFF#8, (0xFC#8).extractLsb' 4 4⟩ ∧ s.wireIn = ackBits true s.par.ackOk ++ []) ∧
    (∃ s : State, s.seq = .idle ∧ s.sess = .ready ∧ s.resetIn = [] ∧
      s.sel ≠ some ⟨0xFF#8, (0xFC#8).extractLsb' 4 4⟩ ∧
      s.wireIn = ackBits true s.par.ackOk ++ ackBits true s.par.ackOk ++ []) :=
  ⟨by decide,
    ⟨readyWith (some ⟨0xFF#8, 0xF#4⟩) (ackBits true std.ackOk ++ []), rfl, rfl, rfl, rfl, rfl⟩,
    ⟨readyWith (some bank0) (ackBits true std.ackOk ++ ackBits true std.ackOk ++ []), rfl, rfl, rfl, by decide,
      rfl⟩⟩

theorem witness_FourAccessesMakeThreeSelectWrites :
    ∃ (s : State) (t u : Nat → Bool), s.seq = .idle ∧ s.sess = .ready ∧ s.resetIn = [] ∧ s.sel = none ∧
      s.cmds = [⟨0x00000046#32, 0#32, 0#32⟩, ⟨0x00000446#32, 0#32, 0#32⟩, ⟨0x00001046#32, 0#32, 0#32⟩,
        ⟨0x00000C46#32, 0#32, 0#32⟩] ++ [] ∧
      s.wireIn = ackBits (t 0) s.par.ackOk ++ readAnswer s.par (t 1) 0x11#32 (u 1) ++ readAnswer s.par (t 2) 0x22#32 (u 2) ++
        ackBits (t 3) s.par.ackOk ++ readAnswer s.par (t 4) 0x33#32 (u 4) ++
        ackBits (t 5) s.par.ackOk ++ readAnswer s.par (t 6) 0x44#32 (u 6) ++ [] :=
  ⟨{ ready none with
      cmds := [⟨0x00000046#32, 0#32, 0#32⟩, ⟨0x00000446#32, 0#32, 0#32⟩, ⟨0x00001046#32, 0#32, 0#32⟩,
        ⟨0x00000C46#32, 0#32, 0#32⟩]
      wireIn := ackBits false std.ackOk ++ readAnswer std false 0x11#32 false ++ readAnswer std false 0x22#32 false ++
        ackBits false std.ackOk ++ readAnswer std false 0x33#32 false ++
        ackBits false std.ackOk ++ readAnswer std false 0x44#32 false ++ [] },
    fun _ => false, fun _ => false, rfl, rfl, rfl, rfl, rfl, rfl⟩

/-- SendRequestStartsItsFirstAttempt and AckOkLeadsToTheDataPhase. -/
theorem witness_SendRequestStartsItsFirstAttempt :
    (inside (.port ctrlstatRead) (.issue ctrlstatTx) [] (ready none)).seq =
      .busy (.port ctrlstatRead) (.issue ctrlstatTx) := rfl

theorem witness_AckOkLeadsToTheDataPhase : (awaiting 1 []).seq = .busy (.port ctrlstatRead) (.q2 ctrlstatTx 1) := rfl

/-- The last attempt that may be repeated. -/
theorem witness_AckWaitRetriesWithinTheBound :
    (awaiting 2 [true]).seq = .busy (.port ctrlstatRead) (.q2 ctrlstatTx 2) ∧
      2 < (awaiting 2 [true]).par.waitRetryBound ∧ (awaiting 2 [true]).wireIn = true :: [] := ⟨rfl, by decide, rfl⟩

/-- The last attempt, with and without the turnaround bit of `ACK_ERR_TRN`, in Ready and inside CONNECT. -/
theorem witness_AckWaitOnTheLastAttemptIsBusy :
    ((awaiting 3 []).seq = .busy (.port ctrlstatRead) (.q2 ctrlstatTx 3) ∧ (awaiting 3 []).par.waitRetryBound ≤ 3 ∧
      ctrlstatTx.role ≠ .clear ∧
      ([] : List Bool).length = (awaiting 3 []).par.ackErrTrn.val ∧ (awaiting 3 []).wireIn = [] ++ []) ∧
    ([true].length = (withErrTrn (awaiting 3 [true])).par.ackErrTrn.val ∧
      (withErrTrn (awaiting 3 [true])).wireIn = [true] ++ []) ∧
    (inside (.u3 0) (.q2 ctrlstatTx 3) [] State.reset).seq = .busy (.u3 0) (.q2 ctrlstatTx 3) := by decide

/-- AckFaultLeadsToOneAbortWrite, in Ready and inside CONNECT. -/
theorem witness_AckFaultLeadsToOneAbortWrite :
    ((awaiting 1 []).seq = .busy (.port ctrlstatRead) (.q2 ctrlstatTx 1) ∧ ctrlstatTx.role ≠ .clear ∧
      ([] : List Bool).length = (awaiting 1 []).par.ackErrTrn.val ∧ (awaiting 1 []).wireIn = [] ++ []) ∧
    (inside .c3 (.q2 ctrlstatTx 1) [] State.reset).seq = .busy .c3 (.q2 ctrlstatTx 1) := by decide

/-- In Ready and inside CONNECT. -/
theorem witness_UndecodableAcksAreNoAck :
    ∃ i : Instr, (i = .ackUndecodable000 ∨ i = .ackUndecodable011 ∨ i = .ackUndecodable101 ∨ i = .ackUndecodable110 ∨
      i = .ackUndecodable111) ∧
    (awaiting 1 []).seq = .busy (.port ctrlstatRead) (.q2 ctrlstatTx 1) ∧ ctrlstatTx.role ≠ .clear ∧
      ([] : List Bool).length = (awaiting 1 []).par.ackErrTrn.val ∧ (awaiting 1 []).wireIn = [] ++ [] ∧
      (inside .c3 (.q2 ctrlstatTx 1) [] State.reset).seq = .busy .c3 (.q2 ctrlstatTx 1) :=
  ⟨.ackUndecodable111, by decide⟩

/-- Both clauses: the data of a DP and of an AP port write, and a SELECT write's. -/
theorem witness_WdataDrivesThePacketAndReturns :
    ((inside (.port abortWrite) (.data (accessTx abortWrite)) [] (ready none)).seq =
        .busy (.port abortWrite) (.data (accessTx abortWrite)) ∧ (accessTx abortWrite).rnw = false ∧
      Pos.port abortWrite = .port (.dpWrite 0x00#8 0x0000001F#32) ∧ (accessTx abortWrite).role = .access) ∧
    ((inside (.port (.apWrite 0x23#8 0xFC#8 0x5#32)) (.data (accessTx (.apWrite 0x23#8 0xFC#8 0x5#32))) []
        (ready (some ⟨0x23#8, 0xF#4⟩))).seq =
        .busy (.port (.apWrite 0x23#8 0xFC#8 0x5#32)) (.data (accessTx (.apWrite 0x23#8 0xFC#8 0x5#32))) ∧
      (accessTx (.apWrite 0x23#8 0xFC#8 0x5#32)).rnw = false ∧
      (accessTx (.apWrite 0x23#8 0xFC#8 0x5#32)).role = .access) ∧
    (selectInData.seq = .busy (.port (.apRead 0x00#8 0x10#8)) (.data (selectTx ⟨0x00#8, 1#4⟩ true 0#2 0#32)) ∧
      (selectTx ⟨0x00#8, 1#4⟩ true 0#2 0#32).rnw = false ∧
      (selectTx ⟨0x00#8, 1#4⟩ true 0#2 0#32).role = .select ⟨0x00#8, 1#4⟩ true 0#2 0#32) := by decide

/-- Good and bad parity (32 ones); the bad one also at M4 of a READMEM and at C3 of CONNECT. -/
theorem witness_RdataIsCheckedBeforeItIsReturned :
    ((inside (.port ctrlstatRead) (.data ctrlstatTx) [] (ready none)).seq =
        .busy (.port ctrlstatRead) (.data ctrlstatTx) ∧ ctrlstatTx.rnw = true ∧ ctrlstatTx.role = .access ∧
      Pos.port ctrlstatRead = .port (.dpRead 0x04#8) ∧ parity32 0xFFFFFFFF#32 = false ∧
      parity32 0xFFFFFFFF#32 ≠ true) ∧
    ((inside (.m4 ⟨false, .w8, 0x1003#32, 0#32⟩) (.data (accessTx (.apRead 0x00#8 0x0C#8))) [] (ready (some bank0))).seq =
        .busy (.m4 ⟨false, .w8, 0x1003#32, 0#32⟩) (.data (accessTx (.apRead 0x00#8 0x0C#8))) ∧
      (accessTx (.apRead 0x00#8 0x0C#8)).rnw = true ∧ (accessTx (.apRead 0x00#8 0x0C#8)).role = .access) ∧
    (inside .c3 (.data (accessTx (.dpRead 0x00#8))) [] State.reset).seq =
      .busy .c3 (.data (accessTx (.dpRead 0x00#8))) := by decide

theorem witness_LineSequencesOfConnect :
    (inside .c1 (.line .lineReset) [] State.reset).seq = .busy .c1 (.line .lineReset) ∧
    (inside .c2Switch (.line .jtagToSwd) [] State.reset).seq = .busy .c2Switch (.line .jtagToSwd) ∧
    (inside .c2Reset (.line .lineReset) [] State.reset).seq = .busy .c2Reset (.line .lineReset) ∧
    (inside .c2Idle (.line .idle8) [] State.reset).seq = .busy .c2Idle (.line .idle8) := by decide

theorem witness_RowsOutOfPlaceGoNoFurther : State.reset.seq = .idle ∧ (awaiting 1 []).seq ≠ .idle := by decide

/-- With the bound of 3: two WAITs and an OK, and three WAITs; and the bound of 1. -/
theorem witness_WaitRetryBoundLaw :
    (∃ s : State, s.seq = .busy (.port ctrlstatRead) (.issue ctrlstatTx) ∧ s.resetIn = [] ∧
      s.par.ackWait ≠ s.par.ackOk ∧ [(true, true), (true, true)].length < s.par.waitRetryBound ∧
      s.wireIn = waitAnswers s.par [(true, true), (true, true)] ++ ackBits true s.par.ackOk ++ []) ∧
    (∃ s : State, s.seq = .busy (.port ctrlstatRead) (.issue ctrlstatTx) ∧ s.resetIn = [] ∧
      s.par.ackWait ≠ s.par.ackOk ∧ [(true, true), (true, true)].length + 1 = s.par.waitRetryBound ∧ ctrlstatTx.role ≠ .clear ∧
      ([] : List Bool).length = s.par.ackErrTrn.val ∧
      s.wireIn = waitAnswers s.par [(true, true), (true, true)] ++ ackBits true s.par.ackWait ++ [] ++ []) ∧
    (∃ s : State, ([] : List (Bool × Bool)).length + 1 = s.par.waitRetryBound ∧
      s.wireIn = waitAnswers s.par [] ++ ackBits true s.par.ackWait ++ [] ++ []) :=
  ⟨⟨inside (.port ctrlstatRead) (.issue ctrlstatTx)
      (waitAnswers std [(true, true), (true, true)] ++ ackBits true std.ackOk ++ []) (ready none),
      rfl, rfl, by decide, by decide, rfl⟩,
    ⟨inside (.port ctrlstatRead) (.issue ctrlstatTx)
      (waitAnswers std [(true, true), (true, true)] ++ ackBits true std.ackWait ++ [] ++ []) (ready none),
      rfl, rfl, by decide, by decide, by decide, by decide, rfl⟩,
    ⟨{ State.reset with
        par := { Config.defaultParams with waitRetryBound := 1 }
        wireIn := waitAnswers std [] ++ ackBits true std.ackWait ++ [] ++ [] }, rfl, rfl⟩⟩

/-- In Ready, and inside CONNECT. -/
theorem witness_FaultIsClearedThenReported (p : Pos) :
    ∃ s : State, s.seq = .busy p (.q2 ctrlstatTx 1) ∧ s.resetIn = [] ∧ s.par.distinctAcks ∧ ctrlstatTx.role ≠ .clear ∧
      [true].length = s.par.ackErrTrn.val ∧
      s.wireIn = ackBits true s.par.ackFault ++ [true] ++ ackBits true s.par.ackOk ++ [] :=
  ⟨withErrTrn (inside p (.q2 ctrlstatTx 1)
      (ackBits true std.ackFault ++ [true] ++ ackBits true std.ackOk ++ []) (ready none)), rfl, rfl,
    by show std.distinctAcks; decide, by decide, rfl, rfl⟩

/-- FAULT to the ABORT write, and WAIT to its last attempt, in Ready and inside CONNECT. -/
theorem witness_FailedAbortWriteIsNotRepeated (p : Pos) :
    ∃ s : State, s.seq = .busy p (.q2 clearTx 3) ∧ s.resetIn = [] ∧
      s.par.ackFault ≠ s.par.ackOk ∧ s.par.ackWait ≠ s.par.ackOk ∧
      s.par.waitRetryBound ≤ 3 ∧ ([] : List Bool).length = s.par.ackErrTrn.val ∧
      s.wireIn = ackBits true s.par.ackWait ++ [] ++ [] :=
  ⟨inside p (.q2 clearTx 3) (ackBits true std.ackWait ++ [] ++ []) (ready none), rfl, rfl,
    by show std.ackFault ≠ std.ackOk; decide, by show std.ackWait ≠ std.ackOk; decide,
    by show std.waitRetryBound ≤ 3; decide, rfl, rfl⟩

/-- A port command and a memory command that miss the cache, with the answers of each of the four clauses. -/
theorem witness_FailedSelectEmptiesTheCache :
    (WellFormed (.readportAp 0x00#8 0x10#8) ∧ (⟨0x00#8, 1#4⟩ : Bank) = ⟨0x00#8, (0x10#8).extractLsb' 4 4⟩ ∧
      WellFormed (.readmem .w8 0x1003#32)) ∧
    (∀ answers : List Bool, ∃ s : State, s.seq = .idle ∧ s.sess = .ready ∧ s.resetIn = [] ∧ s.par.distinctAcks ∧
      s.sel ≠ some ⟨0x00#8, 1#4⟩ ∧ s.sel ≠ some ⟨s.par.memapIndex, 0#4⟩ ∧ s.par = std ∧
      ([] : List Bool).length = s.par.ackErrTrn.val ∧ s.wireIn = answers) ∧
    (undecodable std 0b111#3 ∧ [(true, true), (false, true)].length + 1 = std.waitRetryBound) ∧
    (0b111#3 ≠ std.ackOk ∧ (0b111#3 = std.ackWait → std.waitRetryBound ≤ 1)) :=
  ⟨by decide, fun answers => ⟨readyWith none answers, rfl, rfl, rfl, by show std.distinctAcks; decide, nofun, nofun, rfl, rfl, rfl⟩,
    ⟨by unfold undecodable; decide, rfl⟩, by decide⟩

/-- The first and the last step of CONNECT; then each clause's start from the wire, at C3, with and without a turnaround bit. -/
theorem witness_ConnectErrorsEndDisconnected :
    (inConnect .c1 = true ∧ inConnect .n4 = true ∧ inConnect .c3 = true ∧ State.reset.resetIn = []) ∧
    (∀ (ph : Phase) (answers : List Bool), ∃ s : State, s.seq = .busy .c3 ph ∧ s.resetIn = [] ∧ s.par = std ∧
      ([] : List Bool).length = s.par.ackErrTrn.val ∧ s.wireIn = answers) ∧
    (∀ (ph : Phase) (answers : List Bool), ∃ s : State, s.seq = .busy .c3 ph ∧ s.resetIn = [] ∧ s.par.distinctAcks ∧
      [true].length = s.par.ackErrTrn.val ∧ s.wireIn = answers) ∧
    (undecodable std 0b111#3 ∧ ctrlstatTx.role ≠ .clear ∧ std.ackWait ≠ std.ackOk ∧ std.waitRetryBound ≤ 3 ∧
      std.distinctAcks) ∧
    (std.ackFault ≠ std.ackOk ∧ (std.ackFault = std.ackWait → std.waitRetryBound ≤ 1)) ∧
    (ctrlstatTx.rnw = true ∧ ctrlstatTx.role = .access ∧ parity32 0xFFFFFFFF#32 ≠ true) :=
  ⟨by decide, fun ph answers => ⟨inside .c3 ph answers State.reset, rfl, rfl, rfl, rfl, rfl⟩,
    fun ph answers => ⟨withErrTrn (inside .c3 ph answers State.reset), rfl, rfl, by
      show std.distinctAcks
      decide, rfl, rfl⟩,
    ⟨by unfold undecodable; decide, by decide⟩, by decide, by decide⟩

/-- A poll read with bit 29 clear: no bound, and the last read of a bound of 4. -/
theorem witness_PollRepeatsUntilItsBound :
    (∃ s : State, s.seq = .busy (.u3 3) (.issue ⟨false, true, 1#2, 0#32, .access⟩) ∧ s.resetIn = [] ∧
      ¬ ((0xD0000F00#32).getLsbD 31 = true ∧ (0xD0000F00#32).getLsbD 29 = true) ∧
      s.wireIn = readAnswer s.par true 0xD0000F00#32 true ++ [] ∧ s.par.powerupPollBound ≠ some (3 + 1)) ∧
    (∃ s : State, s.seq = .busy (.u3 3) (.issue ⟨false, true, 1#2, 0#32, .access⟩) ∧ s.resetIn = [] ∧
      s.wireIn = readAnswer s.par true 0xD0000F00#32 true ++ [] ∧ s.par.powerupPollBound = some (3 + 1)) :=
  ⟨⟨inside (.u3 3) (.issue ⟨false, true, 1#2, 0#32, .access⟩) (readAnswer std true 0xD0000F00#32 true ++ []) State.reset,
      rfl, rfl, by decide, rfl, by decide⟩,
    ⟨{ inside (.u3 3) (.issue ⟨false, true, 1#2, 0#32, .access⟩) (readAnswer std true 0xD0000F00#32 true ++ [])
        State.reset with par := { Config.defaultParams with powerupPollBound := some 4 } }, rfl, rfl, rfl, rfl⟩⟩

theorem witness_PollEndsOnBothAckBits :
    ∃ s : State, s.seq = .busy (.u3 0) (.issue ⟨false, true, 1#2, 0#32, .access⟩) ∧ s.resetIn = [] ∧ s.sel = none ∧
      (0xA0000000#32).getLsbD 31 = true ∧ (0xA0000000#32).getLsbD 29 = true ∧
      s.wireIn = readAnswer s.par true 0xA0000000#32 true ++ [] :=
  ⟨inside (.u3 0) (.issue ⟨false, true, 1#2, 0#32, .access⟩) (readAnswer std true 0xA0000000#32 true ++ []) State.reset,
    rfl, rfl, rfl, by decide, by decide, rfl⟩

theorem witness_UnboundedPollNeverEnds :
    ∃ s : State, s.seq = .busy (.u3 0) (.issue ⟨false, true, 1#2, 0#32, .access⟩) ∧ s.resetIn = [] ∧
      s.par.powerupPollBound = none ∧
      (∀ q ∈ [(true, 0x70000F00#32, true)], ¬ (q.2.1.getLsbD 31 = true ∧ q.2.1.getLsbD 29 = true)) ∧
      s.wireIn = pollAnswers s.par [(true, 0x70000F00#32, true)] ++ [] :=
  ⟨inside (.u3 0) (.issue ⟨false, true, 1#2, 0#32, .access⟩) (pollAnswers std [(true, 0x70000F00#32, true)] ++ [])
    State.reset, rfl, rfl, rfl, by simp, rfl⟩

theorem witness_SessionMovesOnlyAsListed :
    RunInvariant apAtQ1 ∧ apAtQ1.resetIn.head? ≠ some true ∧ ∃ t, step apAtQ1 = .next t :=
  ⟨apAtQ1_meets_invariant, by decide, _, rfl⟩

/-- The step that commits a bank. -/
theorem witness_SelectCacheCommitsOnlyAfterItsWrite :
    RunInvariant selectInData ∧ look (step selectInData) (·.sel) = some (some ⟨0x00#8, 1#4⟩) :=
  ⟨selectInData_meets_invariant, by decide +kernel⟩

theorem witness_ApRequestsOnlyUnderTheirBank :
    RunInvariant apAtQ1 ∧
      apAtQ1.seq = .busy (.port (.apRead 0x00#8 0xFC#8)) (.q1 (accessTx (.apRead 0x00#8 0xFC#8)) 3) ∧
      (accessTx (.apRead 0x00#8 0xFC#8)).apndp = true := ⟨apAtQ1_meets_invariant, rfl, rfl⟩

/-- TraceOnlyGrows and OneResponsePerCommand: a step that responds, and one that takes a command and does not. -/
theorem witness_OneResponsePerCommand :
    (awaiting 3 (ackBits true 0b111#3)).resetIn.head? ≠ some true ∧
      look (step (awaiting 3 (ackBits true 0b111#3))) (·.rsps) = some [⟨0x03#8, 0#32⟩] ∧
      look (step { State.reset with cmds := [⟨0x00000000#32, 0#32, 0#32⟩] })
        (fun s => (s.rsps, decide (s.seq = .idle), s.cmds)) = some ([], false, []) := by decide

theorem witness_CswWordFields : ({ Config.defaultParams with cswFixed := 0x23000000#32 } : Params).wf := by decide

/-! ## Listings (the left column of spec/95_test_vectors.md V12) -/

theorem test_listing_memory :
    listing (.writemem .w8 0x1003#32 0xAB#32) = some "writemem.8 0x1003, 0xAB" ∧
      listing (.readmem .session 0x1000#32) = some "readmem.d 0x1000" := by decide

theorem test_listing_port :
    listing (.readportAp 0x23#8 0xFC#8) = some "readport ap35, 0xFC" ∧
      listing (.writeportAp 0x00#8 0x04#8 0x20000000#32) = some "writeport ap0, 0x04, 0x20000000" ∧
      listing (.writeportDp 0x08#8 0x10#32) = some "writeport dp, 0x8, 0x10" := by decide

end Sys2Proof.Tests
end

section
/-! PROOFS. The scope statements (spec/00_scope.md): the values the block holds after its reset, and where every sampled
bit comes from. -/

namespace Sys2Proof.Machine
open Sys2Proof.Safety

/-! ## Reset -/

/-- Settles O1: every conjunct names one field of the reset state or of R6's default parameters. -/
theorem resetStateIsDisconnectedAndEmpty : Obligations.ResetStateIsDisconnectedAndEmpty := by
  unfold Obligations.ResetStateIsDisconnectedAndEmpty
  and_intros <;> rfl

/-! ## Acknowledgement rows at step Q2

Stated for the row itself rather than for the code that decodes to it, so that they need no distinct codes. -/

/-- A transaction other than the ABORT write that raises FaultError is followed by one ABORT write (R140, R150). -/
theorem txError_fault {t : Tx} (p : Pos) (s : State) (h : t.role ≠ .clear) :
    txError p t .fault s = goto p (.issue clearTx) s := by
  unfold txError
  split
  · exact absurd ‹_› h
  all_goals rfl

/-- WAIT with attempts left samples the turnaround and sends the frame again (R118). -/
theorem exec_ackWait_retry {s : State} {p : Pos} {t : Tx} {n : Nat} (h : s.seq = .busy p (.q2 t n))
    (hn : n < s.par.waitRetryBound) :
    exec .ackWait s = .next (goto p (.q1 t (n + 1)) (afterSampling 1 s)) := by
  simp only [exec, execAckWait, h, if_pos hn, discardBits_eq]

/-- WAIT on the last attempt samples the `ACK_ERR_TRN` bits and raises BusyError (R119). -/
theorem exec_ackWait_last {s : State} {p : Pos} {t : Tx} {n : Nat} (h : s.seq = .busy p (.q2 t n))
    (hn : s.par.waitRetryBound ≤ n) :
    exec .ackWait s = .next (txError p t .busy (afterSampling s.par.ackErrTrn.val s)) := by
  simp only [exec, execAckWait, h, if_neg (Nat.not_lt.2 hn), discardBits_eq]

/-- FAULT samples the `ACK_ERR_TRN` bits and raises FaultError (R117). -/
theorem exec_ackFault {s : State} {p : Pos} {t : Tx} {n : Nat} (h : s.seq = .busy p (.q2 t n)) :
    exec .ackFault s = .next (txError p t .fault (afterSampling s.par.ackErrTrn.val s)) := by
  simp only [exec, execAckFault, ackRaises, h, discardBits_eq]

/-- An undecodable code samples the `ACK_ERR_TRN` bits and raises NoAckError (R120). -/
theorem exec_undecodable {s : State} {p : Pos} {t : Tx} {n : Nat} {c : BitVec 3} (h : s.seq = .busy p (.q2 t n))
    (hc : undecodable s.par c) :
    exec (decodeAckCode s.par c) s = .next (txError p t .noAck (afterSampling s.par.ackErrTrn.val s)) := by
  obtain ⟨hok, hwait, hfault⟩ := hc
  rw [exec_ack_cases c rfl h, if_neg hok, if_neg hwait, if_neg hfault, discardBits_eq]

/-! ## What a step samples -/

/-- At step Q2 a step samples the four bits the environment supplies next, and runs the row of the last three (R75). -/
theorem step_q2_supplied {s : State} {p : Pos} {t : Tx} {n : Nat} (hq : s.resetIn = [])
    (h : s.seq = .busy p (.q2 t n)) :
    step s = exec (decodeAckCode s.par (val 3 ((supplied 4 s).drop 1))) (afterSampling 4 s) := by
  rw [step_of_quiet s hq, operate_q2 h, sampleBits_eq]

/-- In the data phase of a read a step samples the 34 bits the environment supplies next, and runs the read packet they
are (R78). -/
theorem step_read_supplied {s : State} {p : Pos} {t : Tx} (hq : s.resetIn = []) (h : s.seq = .busy p (.data t))
    (hr : t.rnw = true) :
    step s = exec (.rdata (val 32 ((supplied 34 s).take 32)) ((supplied 34 s).getD 32 false)
      ((supplied 34 s).getD 33 false)) (afterSampling 34 s) := by
  have hlen : (supplied 34 s).length = 34 := by
    simpa [sampleBits_eq] using sampleBits_length 34 s
  rw [step_of_quiet s hq]
  simp only [operate, fetch, h, hr, if_true, sampleBits_eq, val_sampled _ hlen, decode_rdataWord]

/-- Settles O15: the sampling of a packet or an acknowledgement is the step's own, that of a turnaround is its row's. -/
theorem sampledBitsAreFree : Obligations.SampledBitsAreFree := by
  unfold Obligations.SampledBitsAreFree
  intro s p t n hq
  refine ⟨fun h hr => step_read_supplied hq h hr, fun h => ⟨step_q2_supplied hq h,
    fun hn => exec_ackWait_retry h hn, fun hrole => ⟨fun hn => ?lastWait, ?fault, fun c hc => ?undecodable⟩⟩⟩
  case lastWait => rw [exec_ackWait_last h hn, txError_eq p _ hrole (by decide)]
  case fault => rw [exec_ackFault h, txError_fault p _ hrole]; rfl
  case undecodable => rw [exec_undecodable h hc, txError_eq p _ hrole (by decide)]

end Sys2Proof.Machine
end

section
/-! PROOFS. What one step can do to the block, said once for every state: the wire step of a busy block, the acceptance of
a command by the idle one, and the reset input. -/

namespace Sys2Proof.Machine
open Sys2Proof.Safety

/-! ## The reset input -/

/-- With the reset input low, listed or ended, a step is one operation of the block, and consumes the input beside it. -/
theorem step_of_low {s : State} (h : s.resetIn.head? ≠ some true) :
    step s = operate { s with resetIn := s.resetIn.tail } := by
  obtain ⟨_, _, _, _, _, _, _, _, _, _, _, _, _, _ | ⟨_ | _, rest⟩, _⟩ := s
  · rfl
  · rfl
  · exact absurd rfl h

/-- With the reset input high a step is the block's reset (R270). -/
theorem step_of_high {s : State} {rest : List Bool} (h : s.resetIn = true :: rest) :
    step s = .next (blockReset { s with resetIn := rest }) := by
  simp only [step, advance, h]

/-- Every step is the block's reset or one operation. -/
theorem step_cases {s t : State} (h : step s = .next t) :
    (∃ rest, s.resetIn = true :: rest ∧ t = blockReset { s with resetIn := rest }) ∨
      operate { s with resetIn := s.resetIn.tail } = .next t := by
  by_cases hr : s.resetIn.head? = some true
  · obtain ⟨rest, hr⟩ := List.head?_eq_some_iff.1 hr
    rw [step_of_high hr] at h
    cases h
    exact .inl ⟨rest, hr, rfl⟩
  · exact .inr ((step_of_low hr).symm.trans h)

/-! ## The wire -/

/-- From `s` to `u` only wire events have happened: bits were driven, or sampled from the environment. -/
def OnWire (s u : State) : Prop :=
  ∃ events listed free, u = { s with trace := s.trace ++ events, wireIn := listed, freeUsed := free }

theorem OnWire.refl (s : State) : OnWire s s := ⟨[], s.wireIn, s.freeUsed, by simp⟩

theorem OnWire.trans {s u v : State} (hsu : OnWire s u) (huv : OnWire u v) : OnWire s v := by
  obtain ⟨e₁, _, _, rfl⟩ := hsu
  obtain ⟨e₂, w, f, rfl⟩ := huv
  exact ⟨e₁ ++ e₂, w, f, by simp⟩

theorem OnWire.seq {s u : State} (h : OnWire s u) : u.seq = s.seq := by
  obtain ⟨_, _, _, rfl⟩ := h
  rfl

theorem onWire_drive (bits : List Bool) (s : State) : OnWire s (drive bits s) :=
  ⟨bits.map Event.drive, s.wireIn, s.freeUsed, rfl⟩

theorem onWire_sampleBits (n : Nat) (s : State) : OnWire s (sampleBits n s).2 := by
  rw [sampleBits_eq]
  exact ⟨samples (supplied n s), _, _, rfl⟩

theorem onWire_discardBits (n : Nat) (s : State) : OnWire s (discardBits n s) := onWire_sampleBits n s

/-- What the step of a busy block leads to once its bits have crossed the wire, by the phase it stands in (R18, R115 to
R126). -/
inductive WireStep (s : State) (p : Pos) : Phase → State → Prop
  /-- A fixed sequence has been driven. -/
  | line (l : LineSeq) : WireStep s p (.line l) (stepDone p 0#32 s)
  /-- `sendRequest` is called. -/
  | issue (t : Tx) : WireStep s p (.issue t) (goto p (.q1 t 1) s)
  /-- The request frame has been driven. -/
  | request (t : Tx) (n : Nat) : WireStep s p (.q1 t n) (goto p (.q2 t n) s)
  /-- OK: the data phase is next. -/
  | ackOk (t : Tx) (n : Nat) : WireStep s p (.q2 t n) (goto p (.data t) s)
  /-- WAIT with attempts left: the request is sent again. -/
  | retry (t : Tx) (n : Nat) (hn : n < s.par.waitRetryBound) : WireStep s p (.q2 t n) (goto p (.q1 t (n + 1)) s)
  /-- The last WAIT, a FAULT or an undecodable code: the transaction raises. -/
  | ackError (t : Tx) (n : Nat) (e : OpError) (he : e ≠ .powerUpTimeout) : WireStep s p (.q2 t n) (txError p t e s)
  /-- The data packet ends the transaction. -/
  | returns (t : Tx) (v : Word) : WireStep s p (.data t) (txOk p t v s)
  /-- A read packet has wrong parity. -/
  | badParity (t : Tx) : WireStep s p (.data t) (txError p t .parity s)

/-- The block's operation is a wire step of the phase `ph` of step `p`, after some bits have crossed the wire. -/
def OperatesBy (s : State) (p : Pos) (ph : Phase) : Prop :=
  ∃ u t, OnWire s u ∧ operate s = .next t ∧ WireStep u p ph t

/-- The acknowledgement's step, by the code sampled. -/
theorem operate_q2_wireStep {s : State} {p : Pos} {t : Tx} {n : Nat} (h : s.seq = .busy p (.q2 t n)) :
    OperatesBy s p (.q2 t n) := by
  have hs := onWire_sampleBits 4 s
  have hd (k : Nat) := hs.trans (onWire_discardBits k _)
  unfold OperatesBy
  rw [operate_q2 h, exec_ack_cases _ (sampleBits_par 4 s) ((sampleBits_seq 4 s).trans h)]
  split_ifs with _ _ hn
  · exact ⟨_, _, hs, rfl, .ackOk t n⟩
  · exact ⟨_, _, hd 1, rfl, .retry t n (by simpa using hn)⟩
  all_goals exact ⟨_, _, hd _, rfl, .ackError t n _ (by decide)⟩

/-- The data packet's step: a write's is driven, a read's is sampled and its parity checked. -/
theorem operate_data_wireStep {s : State} {p : Pos} {t : Tx} (h : s.seq = .busy p (.data t)) :
    OperatesBy s p (.data t) := by
  unfold OperatesBy
  cases hr : t.rnw with
  | false => exact ⟨_, _, onWire_drive _ s, operate_write h hr, .returns t _⟩
  | true =>
    rw [operate_read h hr]
    split_ifs
    · exact ⟨_, _, onWire_sampleBits 34 s, rfl, .returns t _⟩
    · exact ⟨_, _, onWire_sampleBits 34 s, rfl, .badParity t⟩

/-- A busy block's operation is a wire step of its phase. -/
theorem operate_wireStep {s : State} {p : Pos} {ph : Phase} (h : s.seq = .busy p ph) : OperatesBy s p ph := by
  cases ph with
  | line l => exact ⟨_, _, onWire_drive _ s, operate_line h, .line l⟩
  | issue t => exact ⟨_, _, .refl s, operate_issue h, .issue t⟩
  | q1 t n => exact ⟨_, _, onWire_drive _ s, operate_q1 h, .request t n⟩
  | q2 t n => exact operate_q2_wireStep h
  | data t => exact operate_data_wireStep h

/-! ## The acceptance of a command -/

/-- The operation is a host command (R97), not a row of the wire. -/
def isCommand : Instr → Bool
  | .connect | .disconnect | .reset | .invalidate | .readmem _ _ | .writemem _ _ _ => true
  | .readportDp _ | .readportAp _ _ | .writeportDp _ _ | .writeportAp _ _ _ => true
  | _ => false

/-- Both operations of a port command's two kinds are commands, so what it decodes to is one. -/
theorem decodePort_isCommand {kind : Bool} {r : BitVec 8} {dp ap i : Instr} (hdp : isCommand dp = true)
    (hap : isCommand ap = true) (h : decodePort kind r dp ap = .ok i) : isCommand i = true := by
  unfold decodePort at h
  split_ifs at h <;> cases h
  · exact hap
  · exact hdp

/-- A command word decodes to commands alone. -/
theorem decodeCmd_isCommand {c addr wdata : Word} {i : Instr} (h : decodeCmd c addr wdata = .ok i) :
    isCommand i = true := by
  unfold decodeCmd at h
  split_ifs at h
  split at h
  case h_7 => exact decodePort_isCommand rfl rfl h
  case h_8 => exact decodePort_isCommand rfl rfl h
  all_goals cases h
  all_goals rfl

/-- What the idle block in state `s` can do when it accepts a command (R202): begin CONNECT, enter a step that stands in an
open session, or answer at once. -/
inductive Accepts (s : State) : State → Prop
  | connects (h : s.sess = .disconnected) : Accepts s (startConnect s)
  | enters (p : Pos) (h : s.sess ≠ .disconnected) (hp : stepSession p .ready = true) : Accepts s (enter p s)
  | answers (r : CmdResult) (hr : ∀ e, r ≠ .error e) : Accepts s (complete r s)
  | invalidates : Accepts s (complete (.ok 0#32) { s with sel := none })

theorem startMem_accepts (write : Bool) (code : WidthCode) (addr value : Word) (s : State) :
    Accepts s (startMem write code addr value s) := by
  unfold startMem
  split_ifs with h
  · exact .enters _ (by simp [h]) rfl
  · exact .answers _ nofun

theorem startPort_accepts (legal : Prop) [Decidable legal] (a : Access) (s : State) :
    Accepts s (startPort legal a s) := by
  unfold startPort
  split_ifs with _ h
  · exact .enters _ (by simp [h]) rfl
  · exact .answers _ nofun
  · exact .answers _ nofun

theorem whenIdle_accepts {s t : State} (h : s.seq = .idle) (ht : Accepts s t) :
    ∃ u, (.next (whenIdle t s) : Host.Outcome State Fault Refusal) = .next u ∧ Accepts s u :=
  ⟨t, by rw [whenIdle, if_pos h], ht⟩

/-- Every command is accepted by the idle block. -/
theorem exec_accepts {i : Instr} {s : State} (hi : isCommand i = true) (h : s.seq = .idle) :
    ∃ t, exec i s = .next t ∧ Accepts s t := by
  cases i with
  | connect =>
    refine whenIdle_accepts h ?_
    split_ifs with hd
    · exact .connects hd
    · exact .answers _ nofun
  | disconnect =>
    refine whenIdle_accepts h ?_
    split_ifs with hd
    · exact .answers _ nofun
    · exact .enters _ hd rfl
  | reset =>
    refine whenIdle_accepts h ?_
    split_ifs with hd
    · exact .connects hd
    · exact .enters _ hd rfl
  | invalidate => exact whenIdle_accepts h .invalidates
  | readmem w a => exact whenIdle_accepts h (startMem_accepts _ _ _ _ s)
  | writemem w a v => exact whenIdle_accepts h (startMem_accepts _ _ _ _ s)
  | readportDp r => exact whenIdle_accepts h (startPort_accepts _ _ s)
  | readportAp k r => exact whenIdle_accepts h (startPort_accepts _ _ s)
  | writeportDp r v => exact whenIdle_accepts h (startPort_accepts _ _ s)
  | writeportAp k r v => exact whenIdle_accepts h (startPort_accepts _ _ s)
  | _ => cases hi

/-- The idle block accepts the first command presented to it, and answers one it cannot decode. -/
theorem operate_accepts {s : State} {c : Command} {rest : List Command} (h : s.seq = .idle) (hc : s.cmds = c :: rest) :
    ∃ t, operate s = .next t ∧ Accepts { s with cmds := rest } t := by
  rw [operate_command h hc]
  cases hd : decodeCmd c.cmd c.addr c.wdata with
  | ok i => exact exec_accepts (decodeCmd_isCommand hd) h
  | error e => exact ⟨_, rfl, .answers _ nofun⟩

/-- A command executes, or none does. -/
theorem Sequencer.idle_or_busy (q : Sequencer) : q = .idle ∨ ∃ p ph, q = .busy p ph := by
  cases q with
  | idle => exact .inl rfl
  | busy p ph => exact .inr ⟨p, ph, rfl⟩

/-- One operation of the block: it waits, accepts a command, or takes a wire step after the bits that `u` has
seen. -/
theorem operate_cases {s t : State} (h : operate s = .next t) :
    (s.seq = .idle ∧ s.cmds = [] ∧ t = s) ∨
      (∃ c rest, s.seq = .idle ∧ s.cmds = c :: rest ∧ Accepts { s with cmds := rest } t) ∨
      (∃ p ph u, s.seq = .busy p ph ∧ OnWire s u ∧ WireStep u p ph t) := by
  obtain hs | ⟨p, ph, hs⟩ := s.seq.idle_or_busy
  · cases hc : s.cmds with
    | nil =>
      rw [operate_waits hs hc] at h
      cases h
      exact .inl ⟨hs, rfl, rfl⟩
    | cons c rest =>
      obtain ⟨t', ht', ha⟩ := operate_accepts hs hc
      rw [ht'] at h
      cases h
      exact .inr (.inl ⟨c, rest, hs, rfl, ha⟩)
  · obtain ⟨u, t', hu, ht', hw⟩ := operate_wireStep hs
    rw [ht'] at h
    cases h
    exact .inr (.inr ⟨p, ph, u, hs, hu, hw⟩)

end Sys2Proof.Machine
end

section
/-! PROOFS. Every step keeps the run invariant (spec/10_state.md R10, R16; spec/43_debug_session.md R200, R205): each shared
operation keeps it, so the wire steps and the acceptance of a command do. -/

namespace Sys2Proof.Machine
open Sys2Proof.Safety

/-! ## The invariant without the sequencer -/

/-- The part of the run invariant that does not speak of the sequencer. It holds in the middle of an operation too, while
the position still is the one that has just ended. -/
structure BlockOk (s : State) : Prop where
  params : s.par.wf
  session : sessionOk s
  latches : latchesOk s

theorem blockOk_of_runInvariant {s : State} (h : RunInvariant s) : BlockOk s := ⟨h.params, h.session, h.latches⟩

theorem BlockOk.withCmds {s : State} (h : BlockOk s) (cmds : List Command) : BlockOk { s with cmds := cmds } :=
  ⟨h.params, h.session, h.latches⟩

/-- Every session state admits an empty cache. -/
theorem sessionOk_emptied {s : State} (h : sessionOk s) : sessionOk { s with sel := none } := by
  unfold sessionOk at *
  cases hs : s.sess <;> simp_all

/-- From PoweredUp on the cache may hold any bank (R205). -/
theorem sessionOk_selected {s : State} (h : sessionOk s) (hs : s.sess = .poweredUp ∨ s.sess = .ready) (c : Option Bank) :
    sessionOk { s with sel := c } := by
  obtain hs | hs := hs <;> simpa [sessionOk, hs] using h

theorem sessionOk_closeSession (s : State) : sessionOk (closeSession s) := by simp [sessionOk]

/-- CONNECT opens the link in a block whose caches are empty (R203). -/
theorem sessionOk_connecting {s : State} (h : sessionOk s) (hs : s.sess = .disconnected) :
    sessionOk (linkConnect { s with sess := .connecting }) := by
  simp only [sessionOk, hs] at h
  obtain ⟨hsel, hwidth, hid, -⟩ := h
  exact ⟨hsel, hwidth, hid, rfl⟩

/-- Step C3 latches the IDCODE and the session is Synced (R203). -/
theorem sessionOk_synced {s : State} (h : sessionOk s) (hs : s.sess = .connecting) (v : Word) :
    sessionOk { s with idcode := some v, sess := .synced } := by
  simp only [sessionOk, hs] at h
  obtain ⟨hsel, hwidth, -, hlink⟩ := h
  exact ⟨hsel, hwidth, nofun, hlink⟩

/-- Powering up keeps the IDCODE and the link (R186). -/
theorem sessionOk_poweredUp {s : State} (h : sessionOk s) (hs : s.sess = .synced) :
    sessionOk { s with sess := .poweredUp } := by
  simp only [sessionOk, hs] at h
  obtain ⟨-, hwidth, hid, hlink⟩ := h
  exact ⟨hwidth, hid, hlink⟩

/-- The end of CONNECT sets the default width (R180, R205). -/
theorem sessionOk_ready {s : State} (h : sessionOk s) (hs : s.sess = .poweredUp) (w : Width) :
    sessionOk { s with width := some w, sess := .ready } := by
  simp only [sessionOk, hs] at h
  obtain ⟨-, hid, hlink⟩ := h
  exact ⟨nofun, hid, hlink⟩

/-- An outcome's STATUS is one of R232 unless it is a PowerUpTimeout outside CONNECT. -/
theorem statusLegal_statusOf {r : CmdResult} (h : r ≠ .error .powerUpTimeout) : statusLegal (statusOf r) = true := by
  cases r with
  | error e =>
    cases e with
    | powerUpTimeout => exact absurd rfl h
    | _ => rfl
  | connectError e => cases e <;> rfl
  | _ => rfl

/-- RDATA is zero beside every STATUS other than Ok (R16, R100). -/
theorem rdataOf_eq_zero {r : CmdResult} (h : statusOf r ≠ 0x00#8) : rdataOf r = 0#32 := by
  cases r with
  | ok v => exact absurd rfl h
  | _ => rfl

/-! ## The step table -/

/-- A step that stands in a Ready session is no poll read. -/
theorem pollsOk_of_ready {p : Pos} (par : Params) (h : stepSession p .ready = true) : pollsOk par p := by
  cases p with
  | u3 n => cases h
  | _ => trivial

/-- A step of CONNECT stands in a session that a failed CONNECT can be in (R200, R204). -/
theorem stepSession_connectFailed {p : Pos} {x : Session} (hp : inConnect p = true) (h : stepSession p x = true)
    (e : OpError) : stepSession (.disc (.connectFailed e)) x = true := by
  cases p <;> simp_all [inConnect, stepSession]

/-- A register access belongs to a step of CONNECT or to a command in a Ready session. -/
theorem inConnect_or_ready_of_access {par : Params} {p : Pos} {a : Access} {x : Session}
    (hp : plan par p = .access a) (h : stepSession p x = true) : inConnect p = true ∨ x = .ready := by
  cases p with
  | m2 | m3 | m4 | port => exact .inr (by simpa [stepSession] using h)
  | disc => cases hp
  | _ => exact .inl rfl

/-- An AP access is made in PoweredUp or Ready alone (R180, R202). -/
theorem session_of_apAccess {par : Params} {p : Pos} {a : Access} {b : Bank} {x : Session}
    (hp : plan par p = .access a) (hb : accessBank a = some b) (h : stepSession p x = true) :
    x = .poweredUp ∨ x = .ready := by
  cases p with
  | n1 | n2 | n3 | n4 => exact .inl (by simpa [stepSession] using h)
  | m2 | m3 | m4 | port => exact .inr (by simpa [stepSession] using h)
  | _ => cases hp <;> cases hb

/-- An access that needs a bank is no SELECT write. -/
theorem writesSelect_of_bank {a : Access} {b : Bank} (h : accessBank a = some b) : writesSelect a = false := by
  cases a with
  | apRead | apWrite => rfl
  | dpRead | dpWrite => cases h

/-- The transaction of an access that needs a bank is an AP transfer. -/
theorem accessTx_of_bank {a : Access} {b : Bank} (h : accessBank a = some b) :
    accessTx a = { accessTx a with apndp := true, role := .access } := by
  cases a with
  | apRead | apWrite => rfl
  | dpRead | dpWrite => cases h

/-- An AP transfer may be on the wire while the cache holds its bank (R42). -/
theorem txOf_accessTx_of_bank {a : Access} {b : Bank} {sel : Option Bank} (h : accessBank a = some b)
    (hsel : sel = some b) : txOf a sel (accessTx a) := by
  have hrole : (accessTx a).role = .access := by rw [accessTx_of_bank h]
  simp only [txOf, hrole, writesSelect_of_bank h]
  exact ⟨trivial, fun b' h' => by rw [hsel, ← h, h'], nofun⟩

/-! ## The shared operations -/

/-- The sequencer may go to a phase that the step's plan allows. -/
theorem runInvariant_goto {s : State} {p : Pos} {ph : Phase} (h : BlockOk s) (hs : stepSession p s.sess = true)
    (hph : phaseOk s p ph) (hpolls : pollsOk s.par p) : RunInvariant (goto p ph s) where
  params := h.params
  session := h.session
  position := hs
  wire := ⟨by cases ph <;> exact hph, hpolls⟩
  latches := h.latches

/-- A command may be answered where the session is Disconnected or Ready (R10). -/
theorem runInvariant_complete {s : State} {r : CmdResult} (hpar : s.par.wf) (h : sessionOk s)
    (hs : s.sess = .disconnected ∨ s.sess = .ready) (hr : r ≠ .error .powerUpTimeout) :
    RunInvariant (complete r s) where
  params := hpar
  session := h
  position := by simpa [seqSession] using hs
  wire := trivial
  latches := ⟨statusLegal_statusOf hr, rdataOf_eq_zero⟩

/-- `selectBank` begins with the transfer itself under its bank, or with the SELECT write and the cache empty (R146). -/
theorem runInvariant_startAp {s : State} {p : Pos} {a : Access} {b : Bank} (h : BlockOk s)
    (hs : stepSession p s.sess = true) (hpolls : pollsOk s.par p) (hp : plan s.par p = .access a)
    (hb : accessBank a = some b) : RunInvariant (startAp p b (accessTx a) s) := by
  unfold startAp
  split_ifs with hhit
  · exact runInvariant_goto h hs ⟨a, hp, txOf_accessTx_of_bank hb hhit⟩ hpolls
  · exact runInvariant_goto ⟨h.params, sessionOk_emptied h.session, h.latches⟩ hs
      ⟨a, hp, rfl, rfl, hb, accessTx_of_bank hb⟩ hpolls

/-- Entering a step keeps the invariant where the session is the step's. -/
theorem runInvariant_enter {s : State} {p : Pos} (h : BlockOk s) (hs : stepSession p s.sess = true)
    (hpolls : pollsOk s.par p) : RunInvariant (enter p s) := by
  unfold enter
  split
  next l hp => exact runInvariant_goto h hs hp hpolls
  next a hp =>
    cases a with
    | dpRead off => exact runInvariant_goto h hs ⟨_, hp, rfl, nofun, nofun⟩ hpolls
    | dpWrite off v =>
      simp only [startAccess]
      split_ifs with hoff
      · exact runInvariant_goto ⟨h.params, sessionOk_emptied h.session, h.latches⟩ hs
          ⟨_, hp, rfl, nofun, fun _ => rfl⟩ hpolls
      · exact runInvariant_goto h hs ⟨_, hp, rfl, nofun, fun hw => absurd (eq_of_beq hw) hoff⟩ hpolls
    | apRead ap reg => exact runInvariant_startAp h hs hpolls hp rfl
    | apWrite ap reg v => exact runInvariant_startAp h hs hpolls hp rfl

/-- Raising keeps the invariant: in CONNECT the disconnect sequence begins, in Ready the command is answered (R204, R245). -/
theorem runInvariant_raise {s : State} {p : Pos} {e : OpError} (h : BlockOk s) (hs : stepSession p s.sess = true)
    (hp : inConnect p = true ∨ (s.sess = .ready ∧ e ≠ .powerUpTimeout)) : RunInvariant (raise p e s) := by
  unfold raise
  split_ifs with hc
  · exact runInvariant_enter h (stepSession_connectFailed hc hs e) trivial
  · obtain ⟨hready, he⟩ := hp.resolve_left hc
    exact runInvariant_complete h.params h.session (.inr hready) (by simpa using he)

theorem runInvariant_startConnect {s : State} (h : BlockOk s) (hs : s.sess = .disconnected) :
    RunInvariant (startConnect s) :=
  runInvariant_enter ⟨h.params, sessionOk_connecting h.session hs, h.latches⟩ rfl trivial

/-- A poll read begins only below its bound; at the bound PowerUpTimeout is raised inside CONNECT (R187). -/
theorem runInvariant_startPoll {s : State} {n : Nat} (h : BlockOk s) (hs : s.sess = .synced)
    (hn : ∀ m, s.par.powerupPollBound = some m → n ≤ m) : RunInvariant (startPoll n s) := by
  have hpos : stepSession (.u3 n) s.sess = true := by simp [stepSession, hs]
  unfold startPoll
  split_ifs with hbound
  · exact runInvariant_raise h hpos (.inl rfl)
  · refine runInvariant_enter h hpos fun m hm => lt_of_le_of_ne (hn m hm) ?_
    rintro rfl
    exact hbound hm

theorem runInvariant_endConnect {s : State} (h : BlockOk s) (hs : s.sess = .poweredUp) (w : Width) :
    RunInvariant (endConnect w s) :=
  runInvariant_complete h.params (sessionOk_ready h.session hs w) (.inr rfl) nofun

/-- The end of a step keeps the invariant: the next step stands in the session this one leaves. -/
theorem runInvariant_stepDone {s : State} {p : Pos} (v : Word) (h : BlockOk s) (hs : stepSession p s.sess = true)
    (hpolls : pollsOk s.par p) : RunInvariant (stepDone p v s) := by
  unfold stepDone
  cases p with
  | c1 | c2Switch | c2Reset | c2Idle | c4 | c5 | c6 | u1 | n1 | n3 | m2 | m3 => exact runInvariant_enter h hs trivial
  | c3 => exact runInvariant_enter ⟨h.params, sessionOk_synced h.session (eq_of_beq hs) v, h.latches⟩ rfl trivial
  | u2 => exact runInvariant_startPoll h (eq_of_beq hs) fun m _ => Nat.zero_le m
  | u3 n =>
    dsimp only
    split_ifs
    · exact runInvariant_enter ⟨h.params, sessionOk_poweredUp h.session (eq_of_beq hs), h.latches⟩ rfl trivial
    · exact runInvariant_startPoll h (eq_of_beq hs) hpolls
  | n2 =>
    dsimp only
    split_ifs
    · exact runInvariant_endConnect h (eq_of_beq hs) _
    · exact runInvariant_enter h hs trivial
  | n4 =>
    dsimp only
    split_ifs <;> exact runInvariant_endConnect h (eq_of_beq hs) _
  | m4 op => exact runInvariant_complete h.params h.session (.inr (eq_of_beq hs)) nofun
  | port a => cases a <;> exact runInvariant_complete h.params h.session (.inr (eq_of_beq hs)) nofun
  | disc why =>
    have hclosed : BlockOk (closeSession s) := ⟨h.params, sessionOk_closeSession s, h.latches⟩
    cases why with
    | reset => exact runInvariant_startConnect hclosed rfl
    | command | connectFailed => exact runInvariant_complete h.params hclosed.session (.inl rfl) nofun

section Transactions

variable {s : State} {p : Pos} {a : Access} {t : Tx}

/-- The end of a transaction keeps the invariant: the SELECT write leaves the cache holding the bank of the AP transfer that
follows it (R146), which only a step in PoweredUp or Ready makes. -/
theorem runInvariant_txOk (v : Word) (h : BlockOk s) (hs : stepSession p s.sess = true) (hpolls : pollsOk s.par p)
    (hp : plan s.par p = .access a) (ht : txOf a s.sel t) : RunInvariant (txOk p t v s) := by
  rcases t with ⟨apndp, rnw, a32, wdata, _ | ⟨b, r, x, w⟩ | _⟩
  case access => exact runInvariant_stepDone v h hs hpolls
  case select =>
    obtain ⟨-, -, hb, hacc⟩ := ht
    have hsel := sessionOk_selected h.session (session_of_apAccess hp hb hs) (some b)
    exact runInvariant_goto ⟨h.params, hsel, h.latches⟩ hs ⟨a, hp, hacc ▸ txOf_accessTx_of_bank hb rfl⟩ hpolls
  case clear =>
    exact runInvariant_raise h hs ((inConnect_or_ready_of_access hp hs).imp_right fun hready => ⟨hready, nofun⟩)

/-- A transaction that raises keeps the invariant: the ABORT write is next, or the error is the step's (R140, R150). -/
theorem runInvariant_txError {e : OpError} (h : BlockOk s) (hs : stepSession p s.sess = true)
    (hpolls : pollsOk s.par p) (hp : plan s.par p = .access a) (he : e ≠ .powerUpTimeout) :
    RunInvariant (txError p t e s) := by
  have hraise (e' : OpError) (he' : e' ≠ .powerUpTimeout) : RunInvariant (raise p e' s) :=
    runInvariant_raise h hs ((inConnect_or_ready_of_access hp hs).imp_right fun hready => ⟨hready, he'⟩)
  by_cases hrole : t.role = .clear
  · simpa only [txError, hrole] using hraise .fault nofun
  by_cases hfault : e = .fault
  · rw [hfault, txError_fault p s hrole]
    exact runInvariant_goto h hs ⟨a, hp, rfl⟩ hpolls
  · rw [txError_eq p s hrole hfault, ← raise_eq]
    exact hraise e he

end Transactions

/-! ## The step -/

/-- The position depends on the cache and the parameters of the state alone. -/
theorem seqOk_congr {s u : State} (h : seqOk s) (hseq : u.seq = s.seq) (hsel : u.sel = s.sel) (hpar : u.par = s.par) :
    seqOk u := by
  unfold seqOk at *
  rw [hseq, hpar]
  obtain hi | ⟨p, ph, hb⟩ := s.seq.idle_or_busy
  · simp [hi]
  · simp only [hb] at *
    refine ⟨?_, h.2⟩
    cases ph <;> simpa only [phaseOk, hsel, hpar] using h.1

/-- Bits that cross the wire are no part of the invariant. -/
theorem runInvariant_onWire {s u : State} (h : RunInvariant s) (hu : OnWire s u) : RunInvariant u := by
  obtain ⟨_, _, _, rfl⟩ := hu
  exact ⟨h.params, h.session, h.position, seqOk_congr h.wire rfl rfl rfl, h.latches⟩

/-- The reset input's coming values are no part of the invariant. -/
theorem runInvariant_withResetIn {s : State} (h : RunInvariant s) (l : List Bool) :
    RunInvariant { s with resetIn := l } :=
  ⟨h.params, h.session, h.position, seqOk_congr h.wire rfl rfl rfl, h.latches⟩

/-- A wire step keeps the invariant. -/
theorem runInvariant_wireStep {s t : State} {p : Pos} {ph : Phase} (h : RunInvariant s) (hb : s.seq = .busy p ph)
    (hstep : WireStep s p ph t) : RunInvariant t := by
  have hB := blockOk_of_runInvariant h
  obtain ⟨⟨hbound, -⟩, -, hs, hwire, -⟩ := h
  simp only [seqOk, seqSession, hb] at hs hwire
  obtain ⟨hph, hpolls⟩ := hwire
  cases hstep with
  | line l => exact runInvariant_stepDone _ hB hs hpolls
  | issue t => exact runInvariant_goto hB hs ⟨hph, le_rfl, hbound⟩ hpolls
  | request t n => exact runInvariant_goto hB hs hph hpolls
  | ackOk t n => exact runInvariant_goto hB hs hph.1 hpolls
  | retry t n hn => exact runInvariant_goto hB hs ⟨hph.1, Nat.succ_pos n, hn⟩ hpolls
  | ackError t n e he =>
    obtain ⟨⟨a, hp, -⟩, -⟩ := hph
    exact runInvariant_txError hB hs hpolls hp he
  | returns t v =>
    obtain ⟨a, hp, ht⟩ := hph
    exact runInvariant_txOk v hB hs hpolls hp ht
  | badParity t =>
    obtain ⟨a, hp, -⟩ := hph
    exact runInvariant_txError hB hs hpolls hp nofun

/-- The idle block accepts a command in Disconnected or Ready (R10), and its first step is one of that session. -/
theorem runInvariant_accepts {s t : State} (h : BlockOk s) (hs : s.sess = .disconnected ∨ s.sess = .ready)
    (ht : Accepts s t) : RunInvariant t := by
  cases ht with
  | connects hd => exact runInvariant_startConnect h hd
  | enters p hd hp =>
    have hready := hs.resolve_left hd
    exact runInvariant_enter h (hready ▸ hp) (pollsOk_of_ready _ hp)
  | answers r hr => exact runInvariant_complete h.params h.session hs (hr _)
  | invalidates => exact runInvariant_complete h.params (sessionOk_emptied h.session) hs nofun

/-- The idle session states (R10). -/
theorem session_of_idle {s : State} (h : RunInvariant s) (hi : s.seq = .idle) :
    s.sess = .disconnected ∨ s.sess = .ready := by
  simpa [seqSession, hi] using h.position

theorem runInvariant_operate {s t : State} (h : RunInvariant s) (hstep : operate s = .next t) : RunInvariant t := by
  obtain ⟨-, -, rfl⟩ | ⟨c, rest, hi, -, ha⟩ | ⟨p, ph, u, hb, hu, hw⟩ := operate_cases hstep
  · exact h
  · have hs := session_of_idle h hi
    exact runInvariant_accepts ((blockOk_of_runInvariant h).withCmds rest) hs ha
  · exact runInvariant_wireStep (runInvariant_onWire h hu) (hu.seq.trans hb) hw

/-- The block's reset gives a state of the invariant whatever it abandons (R33, R270). -/
theorem runInvariant_blockReset {s : State} (h : s.par.wf) : RunInvariant (blockReset s) :=
  ⟨h, ⟨rfl, rfl, rfl, rfl⟩, rfl, trivial, rfl, fun _ => rfl⟩

/-- Settles O3: a step is the block's reset, which meets the invariant, or one operation, which keeps it. -/
theorem stepKeepsRunInvariant : Obligations.StepKeepsRunInvariant := by
  unfold Obligations.StepKeepsRunInvariant
  intro s t h hstep
  obtain ⟨rest, -, rfl⟩ | hop := step_cases hstep
  · exact runInvariant_blockReset h.params
  · exact runInvariant_operate (runInvariant_withResetIn h _) hop

/-- Settles O2: the reset state's parameters are well formed, and it is the block's reset of itself. -/
theorem resetMeetsRunInvariant : Obligations.ResetMeetsRunInvariant := by
  unfold Obligations.ResetMeetsRunInvariant
  exact runInvariant_blockReset (s := State.reset) (by decide)

end Sys2Proof.Machine
end

section
/-! PROOFS. What one operation leaves of the ports, the latches, the trace and the SelectCache (spec/10_state.md R12, R16,
R25; spec/30_encoding.md R95). -/

namespace Sys2Proof.Machine
open Sys2Proof.Safety

/-! ## What an operation does besides moving the sequencer -/

/-- In the state `s` a SELECT write ends whose bank the cache value `c` is (R146). -/
def Commits (s : State) (c : Option Bank) : Prop :=
  ∃ p tx b rnw a32 wdata, s.seq = .busy p (.data tx) ∧ tx.role = .select b rnw a32 wdata ∧ c = some b

/-- From `s` to `u` no response has been given and no command taken, the trace has only grown, and the cache has been left,
emptied, or set by the SELECT write that `s` ends. -/
structure Within (s u : State) : Prop where
  trace : s.trace <+: u.trace
  rsps : u.rsps = s.rsps
  status : u.status = s.status
  rdata : u.rdata = s.rdata
  cmds : u.cmds = s.cmds
  par : u.par = s.par
  seq : u.seq = s.seq
  sel : u.sel = s.sel ∨ u.sel = none ∨ Commits s u.sel

theorem Within.trans {s u v : State} (hsu : Within s u) (huv : Within u v) : Within s v where
  trace := hsu.trace.trans huv.trace
  rsps := huv.rsps.trans hsu.rsps
  status := huv.status.trans hsu.status
  rdata := huv.rdata.trans hsu.rdata
  cmds := huv.cmds.trans hsu.cmds
  par := huv.par.trans hsu.par
  seq := huv.seq.trans hsu.seq
  sel := by
    obtain h | h | h := huv.sel
    · rw [h]
      exact hsu.sel
    · exact .inr (.inl h)
    · simp only [Commits, hsu.seq] at h
      exact .inr (.inr h)

theorem within_onWire {s u : State} (h : OnWire s u) : Within s u := by
  obtain ⟨events, _, _, rfl⟩ := h
  exact ⟨List.prefix_append _ events, rfl, rfl, rfl, rfl, rfl, rfl, .inl rfl⟩

/-- The session fields are neither ports nor latches. -/
theorem within_session (s : State) (x : Session) (w : Option Width) (id : Option Word) :
    Within s { s with sess := x, width := w, idcode := id } :=
  ⟨List.prefix_rfl, rfl, rfl, rfl, rfl, rfl, rfl, .inl rfl⟩

theorem Within.refl (s : State) : Within s s := within_session s _ _ _

theorem within_emptied (s : State) : Within s { s with sel := none } :=
  ⟨List.prefix_rfl, rfl, rfl, rfl, rfl, rfl, rfl, .inr (.inl rfl)⟩

theorem within_committed {s : State} {b : Bank} (h : Commits s (some b)) : Within s { s with sel := some b } :=
  ⟨List.prefix_rfl, rfl, rfl, rfl, rfl, rfl, rfl, .inr (.inr h)⟩

theorem within_linkConnect (s : State) : Within s (linkConnect s) :=
  ⟨List.prefix_append _ _, rfl, rfl, rfl, rfl, rfl, rfl, .inl rfl⟩

theorem within_closeSession (s : State) : Within s (closeSession s) :=
  ⟨List.prefix_append _ _, rfl, rfl, rfl, rfl, rfl, rfl, .inr (.inl rfl)⟩

/-- An operation moves the sequencer or completes the command, and does nothing else but what `Within` allows. -/
inductive Proceeds (s : State) : State → Prop
  | continues {u : State} (p : Pos) (ph : Phase) (h : Within s u) : Proceeds s (goto p ph u)
  | completes {u : State} (r : CmdResult) (h : Within s u) : Proceeds s (complete r u)

theorem Proceeds.after {s u t : State} (ht : Proceeds u t) (h : Within s u) : Proceeds s t := by
  cases ht with
  | continues p ph hu => exact .continues p ph (h.trans hu)
  | completes r hu => exact .completes r (h.trans hu)

/-! ## The shared operations -/

theorem proceeds_complete (r : CmdResult) (s : State) : Proceeds s (complete r s) := .completes r (.refl s)

theorem proceeds_enter (p : Pos) (s : State) : Proceeds s (enter p s) := by
  obtain ⟨ph, h | h⟩ := enter_eq p s <;> rw [h]
  · exact .continues p ph (.refl s)
  · exact .continues p ph (within_emptied s)

theorem proceeds_raise (p : Pos) (e : OpError) (s : State) : Proceeds s (raise p e s) := by
  unfold raise
  split_ifs
  · exact proceeds_enter _ s
  · exact proceeds_complete _ s

theorem proceeds_startConnect (s : State) : Proceeds s (startConnect s) :=
  (proceeds_enter .c1 _).after ((within_session s .connecting s.width s.idcode).trans (within_linkConnect _))

theorem proceeds_startPoll (n : Nat) (s : State) : Proceeds s (startPoll n s) := by
  unfold startPoll
  split_ifs
  · exact proceeds_raise _ _ s
  · exact proceeds_enter _ s

theorem proceeds_endConnect (w : Width) (s : State) : Proceeds s (endConnect w s) :=
  (proceeds_complete _ _).after (within_session s .ready (some w) s.idcode)

/-- The end of a step enters the next, or ends the command. -/
theorem proceeds_stepDone (p : Pos) (v : Word) (s : State) : Proceeds s (stepDone p v s) := by
  unfold stepDone
  cases p with
  | c1 | c2Switch | c2Reset | c2Idle | c4 | c5 | c6 | u1 | n1 | n3 | m2 | m3 => exact proceeds_enter _ s
  | c3 => exact (proceeds_enter _ _).after (within_session s .synced s.width (some v))
  | u2 => exact proceeds_startPoll 0 s
  | u3 n =>
    dsimp only
    split_ifs
    · exact (proceeds_enter _ _).after (within_session s .poweredUp s.width s.idcode)
    · exact proceeds_startPoll (n + 1) s
  | n2 =>
    dsimp only
    split_ifs
    · exact proceeds_endConnect _ s
    · exact proceeds_enter _ s
  | n4 =>
    dsimp only
    split_ifs <;> exact proceeds_endConnect _ s
  | m4 op => exact proceeds_complete _ s
  | port a => cases a <;> exact proceeds_complete _ s
  | disc why =>
    cases why with
    | reset => exact (proceeds_startConnect _).after (within_closeSession s)
    | command | connectFailed => exact (proceeds_complete _ _).after (within_closeSession s)

/-- The end of a transaction; that of a SELECT write commits its bank. -/
theorem proceeds_txOk {s : State} {q : Pos} {t : Tx} (p : Pos) (v : Word) (h : s.seq = .busy q (.data t)) :
    Proceeds s (txOk p t v s) := by
  unfold txOk
  split
  next => exact proceeds_stepDone p v s
  next b rnw a32 wdata hrole =>
    exact .continues p _ (within_committed ⟨q, t, b, rnw, a32, wdata, h, hrole, rfl⟩)
  next => exact proceeds_raise p .fault s

theorem proceeds_txError (p : Pos) (t : Tx) (e : OpError) (s : State) : Proceeds s (txError p t e s) := by
  unfold txError
  split
  · exact proceeds_raise p .fault s
  all_goals
    split
    · exact .continues p _ (.refl s)
    all_goals exact proceeds_raise p _ s

theorem WireStep.proceeds {s t : State} {p : Pos} {ph : Phase} (h : WireStep s p ph t) (hb : s.seq = .busy p ph) :
    Proceeds s t := by
  cases h with
  | line => exact proceeds_stepDone _ _ s
  | issue | request | ackOk | retry => exact .continues _ _ (.refl s)
  | ackError | badParity => exact proceeds_txError _ _ _ s
  | returns => exact proceeds_txOk p _ hb

theorem Accepts.proceeds {s t : State} (h : Accepts s t) : Proceeds s t := by
  cases h with
  | connects => exact proceeds_startConnect s
  | enters p => exact proceeds_enter p s
  | answers r => exact proceeds_complete r s
  | invalidates => exact (proceeds_complete _ _).after (within_emptied s)

/-- One operation: the idle block waits, or takes a command and proceeds; a busy block proceeds. -/
theorem operate_proceeds {s t : State} (h : operate s = .next t) :
    (s.seq = .idle ∧ s.cmds = [] ∧ t = s) ∨
      (∃ c rest, s.seq = .idle ∧ s.cmds = c :: rest ∧ Proceeds { s with cmds := rest } t) ∨
      (s.seq ≠ .idle ∧ Proceeds s t) := by
  obtain h | ⟨c, rest, hi, hc, ha⟩ | ⟨p, ph, u, hb, hu, hw⟩ := operate_cases h
  · exact .inl h
  · exact .inr (.inl ⟨c, rest, hi, hc, ha.proceeds⟩)
  · exact .inr (.inr ⟨by simp [hb], (hw.proceeds (hu.seq.trans hb)).after (within_onWire hu)⟩)

/-! ## The trace -/

theorem Proceeds.trace {s t : State} (h : Proceeds s t) : s.trace <+: t.trace := by
  cases h with
  | continues p ph hu => exact hu.trace
  | completes r hu => exact hu.trace

theorem operate_trace {s t : State} (h : operate s = .next t) : s.trace <+: t.trace := by
  obtain ⟨-, -, rfl⟩ | ⟨c, rest, -, -, hp⟩ | ⟨-, hp⟩ := operate_proceeds h
  · exact List.prefix_rfl
  · exact hp.trace
  · exact hp.trace

/-- Settles O56: without a block reset a step is one operation, and the new trace begins with the old. -/
theorem traceOnlyGrows : Obligations.TraceOnlyGrows := by
  unfold Obligations.TraceOnlyGrows
  intro s t hlow hstep
  obtain ⟨events, h⟩ := operate_trace ((step_of_low hlow).symm.trans hstep)
  exact ⟨events, h.symm⟩

/-! ## Responses -/

/-- The command goes on and nothing has been answered, or it has been answered once and the block is idle (R16, R95). -/
theorem Proceeds.response {s t : State} (h : Proceeds s t) :
    (t.rsps = s.rsps ∧ t.status = s.status ∧ t.rdata = s.rdata ∧ t.seq ≠ .idle) ∨
      ∃ r, t.rsps = s.rsps ++ [r] ∧ t.status = r.status ∧ t.rdata = r.rdata ∧ t.seq = .idle := by
  cases h with
  | continues p ph hu => exact .inl ⟨hu.rsps, hu.status, hu.rdata, nofun⟩
  | completes r hu => exact .inr ⟨⟨statusOf r, rdataOf r⟩, by simp [hu.rsps], rfl, rfl, rfl⟩

theorem Proceeds.cmds {s t : State} (h : Proceeds s t) : t.cmds = s.cmds := by
  cases h with
  | continues p ph hu => exact hu.cmds
  | completes r hu => exact hu.cmds

theorem Proceeds.par {s t : State} (h : Proceeds s t) : t.par = s.par := by
  cases h with
  | continues p ph hu => exact hu.par
  | completes r hu => exact hu.par

/-- A step with the reset input low, in the terms of the state it starts from. -/
theorem step_proceeds {s t : State} (hlow : s.resetIn.head? ≠ some true) (h : step s = .next t) :
    (s.seq = .idle ∧ s.cmds = [] ∧ t = { s with resetIn := s.resetIn.tail }) ∨
      (∃ c rest, s.seq = .idle ∧ s.cmds = c :: rest ∧ Proceeds { s with cmds := rest, resetIn := s.resetIn.tail } t) ∨
      (s.seq ≠ .idle ∧ Proceeds { s with resetIn := s.resetIn.tail } t) :=
  operate_proceeds ((step_of_low hlow).symm.trans h)

/-- Settles O57: the idle block that waits answers nothing; a command that is taken, or goes on, proceeds. -/
theorem oneResponsePerCommand : Obligations.OneResponsePerCommand := by
  unfold Obligations.OneResponsePerCommand
  intro s t hlow hstep
  obtain ⟨hi, hc, rfl⟩ | ⟨c, rest, hi, hc, hp⟩ | ⟨hb, hp⟩ := step_proceeds hlow hstep
  case inl => simp [hi, hc]
  case inr.inl =>
    refine ⟨?_, fun h => absurd hi h, fun _ => by rw [hc]; exact hp.cmds, hp.par⟩
    obtain ⟨hr, hst, hrd, hne⟩ | ⟨r, hr, hst, hrd, hidle⟩ := hp.response
    · exact .inl ⟨hr, hst, hrd, by simp [hne, hc]⟩
    · exact .inr ⟨r, hr, hst, hrd, hidle, .inr (by simp [hc])⟩
  case inr.inr =>
    refine ⟨?_, fun _ => hp.cmds, fun h => absurd h hb, hp.par⟩
    obtain ⟨hr, hst, hrd, hne⟩ | ⟨r, hr, hst, hrd, hidle⟩ := hp.response
    · exact .inl ⟨hr, hst, hrd, by simp [hne, hb]⟩
    · exact .inr ⟨r, hr, hst, hrd, hidle, .inl hb⟩

/-! ## The SelectCache -/

theorem Proceeds.sel {s t : State} (h : Proceeds s t) : t.sel = s.sel ∨ t.sel = none ∨ Commits s t.sel := by
  cases h with
  | continues p ph hu => exact hu.sel
  | completes r hu => exact hu.sel

/-- Of every operation: the cache is left, emptied, or set by the SELECT write that ends. -/
theorem operate_sel {s t : State} (h : operate s = .next t) : t.sel = s.sel ∨ t.sel = none ∨ Commits s t.sel := by
  obtain ⟨-, -, rfl⟩ | ⟨c, rest, -, -, hp⟩ | ⟨-, hp⟩ := operate_proceeds h
  · exact .inl rfl
  · exact hp.sel
  · exact hp.sel

/-- In a run the transaction that ends with `selectBank`'s role is its SELECT write (R146). -/
theorem eq_selectTx_of_runInvariant {s : State} {p : Pos} {tx : Tx} {b : Bank} {rnw : Bool} {a32 : BitVec 2} {wdata : Word}
    (h : RunInvariant s) (hs : s.seq = .busy p (.data tx)) (hrole : tx.role = .select b rnw a32 wdata) :
    tx = selectTx b rnw a32 wdata := by
  have hwire := h.wire
  simp only [seqOk, hs, phaseOk, txOf, hrole] at hwire
  obtain ⟨⟨a, -, htx, -⟩, -⟩ := hwire
  exact htx

/-- The SELECT write's data packet is driven as the cache takes its bank (R12, R146). -/
theorem operate_selectTx {s : State} {p : Pos} {b : Bank} {rnw : Bool} {a32 : BitVec 2} {wdata : Word}
    (h : s.seq = .busy p (.data (selectTx b rnw a32 wdata))) :
    operate s = .next (goto p (.issue ⟨true, rnw, a32, wdata, .access⟩)
      { drive (wdataBits (selectWord b) ++ zeros s.par.postWriteIdle) s with sel := some b }) :=
  operate_write h rfl

/-- Settles O54: a step that sets the cache ends a SELECT write, whose packet it has driven. -/
theorem selectCacheCommitsOnlyAfterItsWrite : Obligations.SelectCacheCommitsOnlyAfterItsWrite := by
  unfold Obligations.SelectCacheCommitsOnlyAfterItsWrite
  intro s t h hstep
  obtain ⟨rest, -, rfl⟩ | hop := step_cases hstep
  · exact .inr (.inl rfl)
  refine (operate_sel hop).imp_right (.imp_right ?_)
  rintro ⟨p, tx, b, rnw, a32, wdata, hs, hrole, hsel⟩
  obtain rfl := eq_selectTx_of_runInvariant h hs hrole
  rw [operate_selectTx hs] at hop
  cases hop
  exact ⟨p, _, b, hs, rfl, rfl, rfl, rfl, rfl⟩

end Sys2Proof.Machine
end

section
/-! PROOFS. The state statements of one operation and the assembled register words (spec/10_state.md R14, R27, R29). -/

namespace Sys2Proof.Machine
open Sys2Proof.Safety

/-- Settles O4: a high reset input gives the block's reset, which keeps what lies outside the block. -/
theorem blockResetAbandonsTheCommand : Obligations.BlockResetAbandonsTheCommand := by
  unfold Obligations.BlockResetAbandonsTheCommand
  intro s rest h
  exact step_of_high h

/-- Settles O25: the idle block empties the cache and completes with Ok, whose STATUS and RDATA are 0. -/
theorem invalidateEmptiesOnlyTheSelectCache : Obligations.InvalidateEmptiesOnlyTheSelectCache := by
  unfold Obligations.InvalidateEmptiesOnlyTheSelectCache
  intro s h
  simp only [exec, execInvalidate, whenIdle, if_pos h]
  rfl

/-- Settles O35: the row is the call of `sendRequest` where the sequencer awaits one. -/
theorem sendRequestStartsItsFirstAttempt : Obligations.SendRequestStartsItsFirstAttempt := by
  unfold Obligations.SendRequestStartsItsFirstAttempt
  intro s p t a r x h
  simp only [exec, execReq, h]
  rfl

/-! ## Register words -/

/-- The SELECT word is its four fields put together (R27). -/
theorem selectWord_eq_append (b : Bank) : selectWord b = b.ap ++ 0#16 ++ b.bank ++ 0#4 := by
  apply BitVec.eq_of_getLsbD_eq
  intro i hi
  -- Bit by bit: which of the four fields the position falls in decides both sides.
  simp only [selectWord, BitVec.getLsbD_append, BitVec.getLsbD_or, BitVec.getLsbD_shiftLeft, BitVec.getLsbD_setWidth]
  grind

/-- Settles O59: each range is one of the four fields. -/
theorem selectWordFields : Obligations.SelectWordFields := by
  unfold Obligations.SelectWordFields
  intro b
  rw [selectWord_eq_append]
  refine ⟨?ap, ?bank, ?middle, ?low⟩
  case ap =>
    rw [BitVec.extractLsb'_append_eq_of_le (by decide), BitVec.extractLsb'_append_eq_of_le (by decide)]
    exact BitVec.extractLsb'_append_eq_left
  case bank =>
    rw [BitVec.extractLsb'_append_eq_of_le (by decide)]
    exact BitVec.extractLsb'_append_eq_right
  case middle =>
    rw [BitVec.extractLsb'_append_eq_of_le (by decide), BitVec.extractLsb'_append_eq_of_le (by decide)]
    exact BitVec.extractLsb'_append_eq_right
  case low => exact BitVec.extractLsb'_append_eq_right

/-- `CSW_FIXED` leaves the SIZE and increment fields zero (R6). -/
theorem cswFixed_fields {par : Params} (h : par.wf) :
    par.cswFixed.extractLsb' 0 3 = 0#3 ∧ par.cswFixed.extractLsb' 4 2 = 0#2 := by
  obtain ⟨-, -, hfixed, -⟩ := h
  have hsize := congrArg (BitVec.extractLsb' 0 3) hfixed
  have hinc := congrArg (BitVec.extractLsb' 4 2) hfixed
  rw [BitVec.extractLsb'_and, show (0x37#32).extractLsb' 0 3 = BitVec.allOnes 3 from rfl, BitVec.and_allOnes] at hsize
  rw [BitVec.extractLsb'_and, show (0x37#32).extractLsb' 4 2 = BitVec.allOnes 2 from rfl, BitVec.and_allOnes] at hinc
  exact ⟨hsize, hinc⟩

/-- The size code stands in bits 2:0 alone (R29). -/
theorem sizeCode_fields (w : Width) :
    ((sizeCode w).setWidth 32).extractLsb' 0 3 = sizeCode w ∧ ((sizeCode w).setWidth 32).extractLsb' 4 2 = 0#2 ∧
      (sizeCode w).setWidth 32 &&& 0xFFFFFFC8#32 = 0#32 := by
  cases w <;> decide

/-- Settles O60: the fields of the CSW word are those of `CSW_FIXED` and of the size code joined by or. -/
theorem cswWordFields : Obligations.CswWordFields := by
  unfold Obligations.CswWordFields
  intro par w h
  obtain ⟨hsize, hinc⟩ := cswFixed_fields h
  obtain ⟨hcode, hzero, hother⟩ := sizeCode_fields w
  rw [cswValue, BitVec.extractLsb'_or, BitVec.extractLsb'_or, BitVec.and_or_distrib_right]
  rw [hsize, hinc, hcode, hzero, hother]
  refine ⟨?_, rfl, BitVec.or_zero⟩
  cases w <;> rfl

end Sys2Proof.Machine
end

section
/-! PROOFS. The memory statements (spec/20_memory.md): the order of bits, the bank an AP request needs, the lanes of the DRW
word, and the SELECT writes that a row of AP reads makes. -/

namespace Sys2Proof.Machine
open Sys2Proof.Safety

/-! ## Bit order (R44, R112) -/

/-- The bits sent are the printed bits reversed. -/
theorem lsbf_eq_bitrev_msbf {n : Nat} (v : BitVec n) : lsbf v = bitrev (msbf v) := by
  apply List.ext_getElem
  · simp [lsbf, bitrev, msbf]
  · intro i hi _
    have hi : i < n := by simpa using hi
    simp only [lsbf, bitrev, msbf, List.getElem_reverse, List.getElem_map, List.getElem_range, List.length_map,
      List.length_range]
    rw [BitVec.getLsbD_eq_getMsbD, decide_eq_true hi, Bool.true_and]

/-- Sending the word that a sequence stands for gives the sequence. -/
theorem lsbf_val (l : List Bool) : lsbf (val l.length l) = l := by
  apply List.ext_getElem
  · exact length_lsbf _
  · intro i _ hi
    simp only [lsbf, List.getElem_map, List.getElem_range]
    rw [val, BitVec.getLsbD_setWidth, BitVec.getLsbD_ofBoolListLE]
    simp [hi]

/-- Settles O12: bit 0 first is the reverse of the printed order, and `val` undoes it both ways. -/
theorem bitOrderLosesNothing : Obligations.BitOrderLosesNothing := by
  unfold Obligations.BitOrderLosesNothing
  exact ⟨fun n v => ⟨val_lsbf v, lsbf_eq_bitrev_msbf v⟩, fun l => ⟨lsbf_val l, List.reverse_reverse l⟩⟩

/-! ## AP requests and the SelectCache (R42, R148) -/

/-- An access whose transaction is an AP transfer needs a bank. -/
theorem accessBank_of_apndp {a : Access} (h : (accessTx a).apndp = true) : ∃ b, accessBank a = some b := by
  cases a with
  | apRead ap reg | apWrite ap reg => exact ⟨_, rfl⟩
  | dpRead | dpWrite => cases h

/-- Of the transactions an access may have on the wire, an AP transfer is the access itself, under its bank: the SELECT
write and the ABORT write go to the DP. -/
theorem txOf_apndp {a : Access} {sel : Option Bank} {t : Tx} (h : txOf a sel t) (hap : t.apndp = true) :
    t = accessTx a ∧ ∃ b, accessBank a = some b ∧ sel = some b := by
  unfold txOf at h
  split at h
  next =>
    obtain ⟨rfl, hbank, -⟩ := h
    obtain ⟨b, hb⟩ := accessBank_of_apndp hap
    exact ⟨rfl, b, hb, hbank b hb⟩
  next =>
    obtain ⟨rfl, -⟩ := h
    cases hap
  next =>
    subst h
    cases hap

/-- In a run a request is one that the step's access may have on the wire. -/
theorem txOf_of_request {s : State} {p : Pos} {t : Tx} {n : Nat} (h : RunInvariant s) (hs : s.seq = .busy p (.q1 t n)) :
    ∃ a, plan s.par p = .access a ∧ txOf a s.sel t := by
  have hwire := h.wire
  simp only [seqOk, hs, phaseOk] at hwire
  obtain ⟨⟨hreq, -⟩, -⟩ := hwire
  exact hreq

/-- Settles O55: of the transactions that the invariant allows at step Q1, only the access itself goes to an AP. -/
theorem apRequestsOnlyUnderTheirBank : Obligations.ApRequestsOnlyUnderTheirBank := by
  unfold Obligations.ApRequestsOnlyUnderTheirBank
  intro s p t n h hs hap
  obtain ⟨a, hplan, ht⟩ := txOf_of_request h hs
  obtain ⟨rfl, b, hb, hsel⟩ := txOf_apndp ht hap
  exact ⟨a, b, hplan, hb, hsel, rfl⟩

/-! ## Lanes of the DRW word (R45, R171, R174, R176, R179) -/

/-- The number of bits an access of width `w` moves (R13, R48). -/
def widthBits : Width → Nat
  | .w8 => 8
  | .w16 => 16
  | .w32 => 32

/-- The mask of a width has that many ones, from bit 0 up. -/
theorem getLsbD_mask (w : Width) (i : Nat) : (mask w).getLsbD i = decide (i < widthBits w) := by
  by_cases hi : i < 32
  · revert i
    cases w <;> decide
  · have hw : widthBits w ≤ 32 := by cases w <;> decide
    rw [BitVec.getLsbD_of_ge _ _ (by omega), eq_comm, decide_eq_false_iff_not]
    omega

/-- A byte's shift counts the bytes below bits 1:0 of the address. -/
theorem shift_w8 (addr : Word) : shift .w8 addr = 8 * (addr.extractLsb' 0 2).toNat := by
  simp only [shift, BitVec.toNat_and, BitVec.extractLsb'_toNat, Nat.shiftRight_zero]
  exact congrArg (8 * ·) (Nat.and_two_pow_sub_one_eq_mod addr.toNat 2)

/-- A halfword's shift is 16 above bit 1 of the address. -/
theorem shift_w16 (addr : Word) : shift .w16 addr = 16 * (addr.extractLsb' 1 1).toNat := by
  have hbit : addr.toNat &&& 2 = (addr.toNat.testBit 1).toNat * 2 := Nat.and_two_pow addr.toNat 1
  rw [Nat.toNat_testBit] at hbit
  rw [shift, BitVec.toNat_and, BitVec.extractLsb'_toNat, Nat.shiftRight_eq_div_pow]
  show 8 * (addr.toNat &&& 2) = _
  omega

/-- The lane lies within the word. -/
theorem shift_add_widthBits_le (w : Width) (addr : Word) : shift w addr + widthBits w ≤ 32 := by
  cases w with
  | w8 =>
    have := (addr.extractLsb' 0 2).isLt
    rw [shift_w8, widthBits]
    omega
  | w16 =>
    have := (addr.extractLsb' 1 1).isLt
    rw [shift_w16, widthBits]
    omega
  | w32 => rfl

/-- A read gives the bits of its lane, zero-extended, whatever the others hold (R176). -/
theorem laneOf_eq_extractLsb' (w : Width) (addr drw : Word) :
    laneOf w addr drw = (drw.extractLsb' (shift w addr) (widthBits w)).zeroExtend 32 := by
  apply BitVec.eq_of_getLsbD_eq
  intro i hi
  rw [laneOf, BitVec.getLsbD_and, BitVec.getLsbD_ushiftRight, getLsbD_mask, BitVec.zeroExtend_eq_setWidth,
    BitVec.getLsbD_setWidth, BitVec.getLsbD_extractLsb', decide_eq_true hi, Bool.true_and, Bool.and_comm]

/-- What a write puts in its lane a read takes from it, masked (R174, R176). -/
theorem laneOf_drwWord (w : Width) (addr v : Word) : laneOf w addr (drwWord w addr v) = v &&& mask w := by
  have hlane := shift_add_widthBits_le w addr
  apply BitVec.eq_of_getLsbD_eq
  intro i hi
  simp only [laneOf, drwWord, BitVec.getLsbD_and, BitVec.getLsbD_ushiftRight, BitVec.getLsbD_shiftLeft, getLsbD_mask]
  by_cases hw : i < widthBits w
  · simp [hw, show shift w addr + i < 32 by omega]
  · simp [hw]

/-- A write leaves every bit outside its lane zero (R174, R179). -/
theorem drwWord_outside_lane (w : Width) (addr v : Word) :
    drwWord w addr v &&& ~~~(mask w <<< shift w addr) = 0#32 := by
  rw [drwWord, BitVec.shiftLeft_and_distrib, BitVec.and_assoc, BitVec.and_not_self]; exact BitVec.and_zero

/-- Settles O58: the lane of a width begins at its shift and has its number of bits. -/
theorem lanesCarryTheMaskedDatum : Obligations.LanesCarryTheMaskedDatum := by
  unfold Obligations.LanesCarryTheMaskedDatum
  refine ⟨⟨rfl, rfl, rfl⟩, fun addr => ⟨shift_w8 addr, shift_w16 addr, rfl⟩, by decide,
    fun addr drw => ⟨?byte, ?half, ?word⟩, fun w addr v => ⟨laneOf_drwWord w addr v, drwWord_outside_lane w addr v⟩⟩
  case byte => rw [laneOf_eq_extractLsb', shift_w8]; rfl
  case half => rw [laneOf_eq_extractLsb', shift_w16]; rfl
  case word => rw [laneOf_eq_extractLsb', shift, widthBits]; simp

/-! ## AP reads through the port (R57, R145, R146, R152) -/

/-- The block can take a command that is admitted in Ready: it is idle in a Ready session, with the reset input low. -/
structure Admits (s : State) : Prop where
  idle : s.seq = .idle
  ready : s.sess = .ready
  quiet : s.resetIn = []

/-- A presented command is taken and its operation runs. -/
theorem step_presented {s : State} {c : Command} {later : List Command} {i : Instr} (h : Admits s)
    (hc : s.cmds = c :: later) (hi : decodeCmd c.cmd c.addr c.wdata = .ok i) :
    step s = exec i { s with cmds := later } := by
  rw [step_of_quiet s h.quiet, operate_command h.idle hc, hi]

/-- The SELECT write of `selectBank` answered OK at once: the cache holds its bank and the AP transfer that waited for it
is called (R146). -/
theorem steps_selectTx {s : State} {p : Pos} {b : Bank} {rnw : Bool} {a32 : BitVec 2} {v : Word} {trn : Bool}
    {rest : List Bool} (h : s.seq = .busy p (.issue (selectTx b rnw a32 v))) (hq : s.resetIn = [])
    (hw : s.wireIn = ackBits trn s.par.ackOk ++ rest) :
    steps 4 s = .next { s with
      seq := .busy p (.issue ⟨true, rnw, a32, v, .access⟩)
      sel := some b
      wireIn := rest
      trace := s.trace ++ writeEvents s.par false 2#2 (selectWord b) trn } :=
  steps_write h rfl hq hw

section ReadportAp

variable {s : State} {c : Command} {later : List Command} {ap reg : BitVec 8} {v : Word} {trn trn' : Bool}
  {rest : List Bool}

/-- READPORT of an AP register enters its access. -/
theorem exec_readportAp (h : Admits s) (hreg : alignedReg reg) :
    exec (.readportAp ap reg) s =
      .next (startAp (.port (.apRead ap reg)) (bankOf ap reg) (accessTx (.apRead ap reg)) s) := by
  simp only [exec, execReadportAp, whenIdle, if_pos h.idle, startPort, if_neg (not_not_intro hreg), if_pos h.ready]
  rfl

/-- A presented READPORT of an AP register is taken and enters its access. -/
theorem step_readportAp (h : Admits s) (hc : s.cmds = c :: later)
    (hi : decodeCmd c.cmd c.addr c.wdata = .ok (.readportAp ap reg)) (hreg : alignedReg reg) :
    step s = .next (startAp (.port (.apRead ap reg)) (bankOf ap reg) (accessTx (.apRead ap reg))
      { s with cmds := later }) :=
  (step_presented h hc hi).trans (exec_readportAp ⟨h.idle, h.ready, h.quiet⟩ hreg)

/-- The AP transfer of READPORT answered OK at once with good parity completes the command with the word read. -/
theorem steps_apRead (h : s.seq = .busy (.port (.apRead ap reg)) (.issue (accessTx (.apRead ap reg))))
    (hq : s.resetIn = []) (hw : s.wireIn = readAnswer s.par trn v trn' ++ rest) :
    steps 4 s = .next (answered 0x00#8 v { s with
      wireIn := rest, trace := s.trace ++ readEvents s.par true (a32Of reg) trn v trn' }) :=
  steps_read h rfl hq hw

/-- A READPORT presented under its bank takes five steps: its acceptance and the transfer (R145, R152). -/
theorem steps_readportAp_hit (h : Admits s) (hc : s.cmds = c :: later)
    (hi : decodeCmd c.cmd c.addr c.wdata = .ok (.readportAp ap reg)) (hreg : alignedReg reg)
    (hsel : s.sel = some (bankOf ap reg)) (hw : s.wireIn = readAnswer s.par trn v trn' ++ rest) :
    steps 5 s = .next (answered 0x00#8 v { s with
      cmds := later
      wireIn := rest
      trace := s.trace ++ readEvents s.par true (a32Of reg) trn v trn' }) := by
  rw [steps_succ (step_readportAp h hc hi hreg), startAp, if_pos hsel]
  exact steps_apRead rfl h.quiet hw

/-- A READPORT presented under another bank takes nine steps: its acceptance, the SELECT write and the transfer (R146,
R152). -/
theorem steps_readportAp_miss {trn₀ : Bool} (h : Admits s) (hc : s.cmds = c :: later)
    (hi : decodeCmd c.cmd c.addr c.wdata = .ok (.readportAp ap reg)) (hreg : alignedReg reg)
    (hsel : s.sel ≠ some (bankOf ap reg))
    (hw : s.wireIn = ackBits trn₀ s.par.ackOk ++ (readAnswer s.par trn v trn' ++ rest)) :
    steps 9 s = .next (answered 0x00#8 v { s with
      cmds := later
      sel := some (bankOf ap reg)
      wireIn := rest
      trace := s.trace ++ writeEvents s.par false 2#2 (selectWord (bankOf ap reg)) trn₀ ++
        readEvents s.par true (a32Of reg) trn v trn' }) := by
  rw [steps_succ (step_readportAp h hc hi hreg), startAp, if_neg hsel]
  exact Eq.trans (steps_add (j := 4) (k := 4) (steps_selectTx rfl h.quiet hw)) (steps_apRead rfl h.quiet rfl)

end ReadportAp

/-- Settles O33: the cache misses on the first, third and fourth access and hits on the second. -/
theorem fourAccessesMakeThreeSelectWrites : Obligations.FourAccessesMakeThreeSelectWrites := by
  unfold Obligations.FourAccessesMakeThreeSelectWrites
  intro s v1 v2 v3 v4 t u rest later hidle hready hquiet hsel hcmds hwire
  simp only [List.append_assoc] at hwire
  have hempty : s.sel ≠ some (bankOf 0x00#8 0x00#8) := by rw [hsel]; nofun
  have hbank1 : some (bankOf 0x00#8 0x00#8) ≠ some (bankOf 0x00#8 0x10#8) := by decide
  have hbank0 : some (bankOf 0x00#8 0x10#8) ≠ some (bankOf 0x00#8 0x0C#8) := by decide
  refine Eq.trans (steps_add (j := 9) (k := 23)
    (steps_readportAp_miss ⟨hidle, hready, hquiet⟩ hcmds rfl rfl hempty hwire)) ?_
  refine Eq.trans (steps_add (j := 5) (k := 18)
    (steps_readportAp_hit (reg := 0x04#8) ⟨rfl, hready, hquiet⟩ rfl rfl rfl rfl rfl)) ?_
  refine Eq.trans (steps_add (j := 9) (k := 9)
    (steps_readportAp_miss ⟨rfl, hready, hquiet⟩ rfl rfl rfl hbank1 rfl)) ?_
  refine Eq.trans (steps_readportAp_miss ⟨rfl, hready, hquiet⟩ rfl rfl rfl hbank0 rfl) ?_
  simp only [answered, hidle, List.append_assoc]
  rfl

end Sys2Proof.Machine
end

section
/-! PROOFS. The encoding statements (spec/30_encoding.md): what the encoder writes and what the decoder reads back, for each
format of R70, the legality check of R99, and the parity bit of R110. -/

namespace Sys2Proof.Machine
open Sys2Proof.Safety

/-! ## Command words (R96 to R99) -/

/-- Every field of a command word is read back from the place R96 gives it. -/
@[simp] theorem commandWord_fields (op : BitVec 4) (w : BitVec 2) (k : BitVec 1) (r a : BitVec 8) :
    (commandWord op w k r a).extractLsb' 0 4 = op ∧ (commandWord op w k r a).extractLsb' 4 2 = w ∧
      (commandWord op w k r a)[6] = k[0] ∧ (commandWord op w k r a)[7] = false ∧
      (commandWord op w k r a).extractLsb' 8 8 = r ∧ (commandWord op w k r a).extractLsb' 16 8 = a ∧
      (commandWord op w k r a).extractLsb' 24 8 = 0#8 := by
  have hbit := Laws.TableRow.commandWord_bit op w k r a
  refine ⟨?op, ?width, hbit 6, hbit 7, ?regAddr, ?apIndex, ?reserved⟩
  all_goals
    ext i hi
    rw [BitVec.getElem_extractLsb', hbit]
    grind

@[simp] theorem decodeWidthCode_encodeWidthCode (w : WidthCode) : decodeWidthCode (encodeWidthCode w) = w := by
  cases w <;> rfl

/-- A DP port command that names an aligned offset up to 0xC is legal. -/
theorem decodePort_dp {r : BitVec 8} {dp ap : Instr} (ha : alignedReg r) (hd : dpOffset r) :
    decodePort false r dp ap = .ok dp := by
  simp [decodePort, ha, hd]

/-- An AP port command that names an aligned register is legal. -/
theorem decodePort_ap {r : BitVec 8} {dp ap : Instr} (ha : alignedReg r) : decodePort true r dp ap = .ok ap := by
  simp [decodePort, ha]

/-- A port command is rejected for its register alone (R99 (c), (d)). -/
theorem decodePort_error_iff {kind : Bool} {r : BitVec 8} {dp ap : Instr} :
    (∃ e, decodePort kind r dp ap = .error e) ↔ ¬ alignedReg r ∨ (kind = false ∧ ¬ dpOffset r) := by
  unfold decodePort
  split_ifs with ha hk hd
  · simp [ha, hk]
  · simp [ha, hd]
  · exact iff_of_true ⟨_, rfl⟩ (.inr ⟨eq_false_of_ne_true hk, hd⟩)
  · exact iff_of_true ⟨_, rfl⟩ (.inl ha)

/-- A port command decodes to a well-formed operation if each of its two is well formed once its check has passed. -/
theorem wellFormed_of_decodePort {kind : Bool} {r : BitVec 8} {dp ap i : Instr}
    (hdp : alignedReg r ∧ dpOffset r → WellFormed dp) (hap : alignedReg r → WellFormed ap)
    (h : decodePort kind r dp ap = .ok i) : WellFormed i := by
  unfold decodePort at h
  split_ifs at h with ha _ hd <;> cases h
  · exact hap ha
  · exact hdp ⟨ha, hd⟩

theorem wellFormed_of_decodeCmd {c addr wdata : Word} {i : Instr} (h : decodeCmd c addr wdata = .ok i) :
    WellFormed i := by
  unfold decodeCmd at h
  split_ifs at h
  split at h
  case h_7 | h_8 =>
    refine wellFormed_of_decodePort ?_ ?_ h
    · exact fun hr => decide_eq_true hr
    · exact fun hr => decide_eq_true hr
  all_goals cases h
  all_goals rfl

/-- A field of a field. -/
theorem extractLsb'_extractLsb'_of_add_le {w start len start' len' : Nat} (x : BitVec w) (h : start' + len' ≤ len) :
    (x.extractLsb' start len).extractLsb' start' len' = x.extractLsb' (start + start') len' := by
  ext i hi
  grind

/-- R99 in the decoder's terms: OP as a number, and the register checks on the extracted REGADDR. -/
theorem illegalWord_iff (c : Word) :
    illegalWord c ↔ (c.getLsbD 7 = true ∨ c.extractLsb' 24 8 ≠ 0#8) ∨ 8 ≤ (c.extractLsb' 0 4).toNat ∨
      (((c.extractLsb' 0 4).toNat = 6 ∨ (c.extractLsb' 0 4).toNat = 7) ∧
        (¬ alignedReg (c.extractLsb' 8 8) ∨ (c.getLsbD 6 = false ∧ ¬ dpOffset (c.extractLsb' 8 8)))) := by
  have h6 : c.extractLsb' 0 4 = 6#4 ↔ (c.extractLsb' 0 4).toNat = 6 := BitVec.toNat_eq
  have h7 : c.extractLsb' 0 4 = 7#4 ↔ (c.extractLsb' 0 4).toNat = 7 := BitVec.toNat_eq
  rw [alignedReg, dpOffset, extractLsb'_extractLsb'_of_add_le c (by decide),
    extractLsb'_extractLsb'_of_add_le c (by decide), or_assoc, ← h6, ← h7]
  rfl

/-- The decoder's check is R99's: the reserved bits, then OP, then the register of a port command. -/
theorem decodeCmd_error_iff (c addr wdata : Word) :
    (∃ e, decodeCmd c addr wdata = .error e) ↔ illegalWord c := by
  rw [illegalWord_iff]
  unfold decodeCmd
  split_ifs with hr
  · exact iff_of_true ⟨_, rfl⟩ (.inl hr)
  · rw [or_iff_right hr]
    split
    case h_7 hop | h_8 hop => rw [hop, decodePort_error_iff]; simp
    case h_9 => exact iff_of_true ⟨_, rfl⟩ (.inl (by grind))
    all_goals
      next hop => rw [hop]; simp

/-! ## Requests and data packets (R72 to R79) -/

/-- Each request row is written as its operands. -/
theorem encode_requestRow (par : Params) (a r : Bool) (x : BitVec 2) :
    encode par (requestRow a r x) = .req (requestWord a r x) := by
  have h : ∀ y : BitVec 2, y = 0#2 ∨ y = 1#2 ∨ y = 2#2 ∨ y = 3#2 := by decide
  obtain rfl | rfl | rfl | rfl := h x <;> cases a <;> cases r <;> rfl

/-- A word that passes the request checks is the request word of its operand bits. -/
theorem decodeRequest_ok {w : BitVec 8} {row : Bool → Bool → BitVec 2 → Instr} {i : Instr}
    (h : decodeRequest w row = .ok i) : ∃ a r x, w = requestWord a r x ∧ i = row a r x := by
  simp only [decodeRequest] at h
  split_ifs at h with hframing hparity
  obtain ⟨hstart, hstop, hpark⟩ := hframing
  cases h
  refine ⟨_, _, _, ?_, rfl⟩
  apply BitVec.eq_of_getLsbD_eq
  intro i hi
  simp only [requestWord, BitVec.getLsbD_append]
  interval_cases i <;> simp_all

/-- A word that passes the checks of a write packet is the packet of its data bits. -/
theorem decodeWdata_ok {w : BitVec 34} {i : Instr} (h : decodeWdata w = .ok i) :
    ∃ v, w = wdataWord v ∧ i = .wdata v := by
  simp only [decodeWdata] at h
  split_ifs at h with hturnaround hparity
  cases h
  refine ⟨_, ?_, rfl⟩
  apply BitVec.eq_of_getLsbD_eq
  intro i hi
  simp only [wdataWord, BitVec.getLsbD_append]
  grind

/-- Any 34 bits are the read packet of their three fields. -/
theorem rdataWord_fields (w : BitVec 34) : rdataWord (w.extractLsb' 0 32) (w.getLsbD 32) (w.getLsbD 33) = w := by
  apply BitVec.eq_of_getLsbD_eq
  intro i hi
  simp only [rdataWord, BitVec.getLsbD_append]
  grind

/-! ## Decoding and encoding -/

/-- Settles O5: each format's words are read back as the operation they were written for; an acknowledgement row is found
by its code, an undecodable one by its place among the codes left over. -/
theorem decodeOfEncodeIsTheOperation : Obligations.DecodeOfEncodeIsTheOperation := by
  unfold Obligations.DecodeOfEncodeIsTheOperation
  intro par i hp hi
  cases i with
  | connect | disconnect | reset | invalidate => rfl
  | readmem | writemem => simp [decode, encode, decodeCmd]
  | readportDp r | writeportDp r =>
    obtain ⟨ha, hd⟩ : alignedReg r ∧ dpOffset r := of_decide_eq_true hi
    simp [decode, encode, decodeCmd, decodePort_dp ha hd]
  | readportAp k r | writeportAp k r =>
    have ha : alignedReg r := of_decide_eq_true hi
    simp [decode, encode, decodeCmd, decodePort_ap ha]
  | req a r x => exact decode_sendRequest par a r x
  | ackOk => exact congrArg Except.ok (decodeAckCode_ok par)
  | ackWait => exact congrArg Except.ok (decodeAckCode_wait hp.1.symm)
  | ackFault => exact congrArg Except.ok (decodeAckCode_fault hp)
  | ackUndecodable000 => exact congrArg Except.ok (decode_undecodable hp 0 (by decide) _)
  | ackUndecodable011 => exact congrArg Except.ok (decode_undecodable hp 1 (by decide) _)
  | ackUndecodable101 => exact congrArg Except.ok (decode_undecodable hp 2 (by decide) _)
  | ackUndecodable110 => exact congrArg Except.ok (decode_undecodable hp 3 (by decide) _)
  | ackUndecodable111 => exact congrArg Except.ok (decode_undecodable hp 4 (by decide) _)
  | wdata v => exact decode_wdataWord par v
  | rdata v q b => exact decode_rdataWord par v q b
  | lineReset | jtagToSwd | idle8 => exact if_pos rfl
  -- The sixteen request rows, each a `requestRow` by evaluation.
  | _ => exact decode_requestWord par _ _ _

theorem wellFormed_requestRow (a r : Bool) (x : BitVec 2) : WellFormed (requestRow a r x) := by
  unfold requestRow
  split <;> rfl

theorem wellFormed_decodeAckCode (par : Params) (c : BitVec 3) : WellFormed (decodeAckCode par c) := by
  unfold decodeAckCode
  split_ifs
  case neg => split <;> rfl
  all_goals rfl

/-- A fixed sequence decodes to its row, and only as its own bits (R80 to R82). -/
theorem decodeSequence_ok {w bits : List Bool} {row i : Instr} {e : DecodeError}
    (h : (if w = bits then Except.ok row else Except.error e) = .ok i) : w = bits ∧ i = row := by
  split_ifs at h with hw
  cases h
  exact ⟨hw, rfl⟩

/-- Settles O6: the only operands with a check are those of port commands, which the decoder checks. -/
theorem decodedOperationsAreWellFormed : Obligations.DecodedOperationsAreWellFormed := by
  unfold Obligations.DecodedOperationsAreWellFormed
  intro par f i h
  cases f with
  | cmd c addr wdata => exact wellFormed_of_decodeCmd h
  | sendRequest w =>
    obtain ⟨a, r, x, -, rfl⟩ := decodeRequest_ok h
    rfl
  | req w =>
    obtain ⟨a, r, x, -, rfl⟩ := decodeRequest_ok h
    exact wellFormed_requestRow a r x
  | ack w =>
    cases h
    exact wellFormed_decodeAckCode par w
  | wdata w =>
    obtain ⟨v, -, rfl⟩ := decodeWdata_ok h
    rfl
  | rdata w =>
    cases h
    rfl
  | lineReset w | jtagToSwd w | idle8 w =>
    obtain ⟨-, rfl⟩ := decodeSequence_ok h
    rfl

/-- Settles O7: each wire format's checks leave no bit of the word free that its operation does not hold. -/
theorem wireWordsHaveOneMeaning : Obligations.WireWordsHaveOneMeaning := by
  unfold Obligations.WireWordsHaveOneMeaning
  intro par f i hp hcmd h
  cases f with
  | cmd c addr wdata => exact absurd rfl (hcmd c addr wdata)
  | sendRequest w =>
    obtain ⟨a, r, x, rfl, rfl⟩ := decodeRequest_ok h
    rfl
  | req w =>
    obtain ⟨a, r, x, rfl, rfl⟩ := decodeRequest_ok h
    exact encode_requestRow par a r x
  | ack w =>
    cases h
    exact encode_decodeAckCode hp w
  | wdata w =>
    obtain ⟨v, rfl, rfl⟩ := decodeWdata_ok h
    rfl
  | rdata w =>
    cases h
    exact congrArg Frame.rdata (rdataWord_fields w)
  | lineReset w | jtagToSwd w | idle8 w =>
    obtain ⟨rfl, rfl⟩ := decodeSequence_ok h
    rfl

/-- Settles O8: the decoder's check of a command word, whatever the parameters. -/
theorem commandRejectedExactlyWhenIllegal : Obligations.CommandRejectedExactlyWhenIllegal := by
  unfold Obligations.CommandRejectedExactlyWhenIllegal
  exact fun _ c addr wdata => decodeCmd_error_iff c addr wdata

/-- Settles O9: each word is evaluated with the parameters of R6. -/
theorem tableWordsDecode : Obligations.TableWordsDecode := by
  unfold Obligations.TableWordsDecode
  and_intros <;> rfl

/-- Settles O26: the codes and the command words are evaluated; code 3 stands for the width the session holds. -/
theorem widthCodesDecode : Obligations.WidthCodesDecode := by
  unfold Obligations.WidthCodesDecode
  refine ⟨by decide, fun par addr wdata => ?words, fun s => ⟨rfl, rfl, rfl, fun w hw => ?session⟩⟩
  case words => and_intros <;> rfl
  case session => simp only [decodeWidth, hw]

/-! ## Parity (R79, R110) -/

/-- The exclusive or of a sequence is the parity of its number of ones. -/
theorem count_true_mod_two (l : List Bool) : l.count true % 2 = (xorFold l).toNat := by
  induction l with
  | nil => rfl
  | cons b l ih =>
    have hxor : xorFold (b :: l) = (b ^^ xorFold l) := rfl
    rw [hxor, List.count_cons, Nat.add_mod, ih]
    cases b <;> cases xorFold l <;> rfl

/-- Settles O11: the number of ones is that of the word, whose parity is the recomputed bit, and the received bit. -/
theorem parityAcceptsExactlyEvenPackets : Obligations.ParityAcceptsExactlyEvenPackets := by
  unfold Obligations.ParityAcceptsExactlyEvenPackets
  intro v p
  rw [List.count_append, Nat.add_mod, count_true_mod_two, ← parity32]
  cases parity32 v <;> cases p <;> decide

end Sys2Proof.Machine
end

section
/-! PROOFS. The operation a step runs (spec/30_encoding.md R95 to R101): the frame that is fetched, the command that is
presented or rejected, and the step that waits. -/

namespace Sys2Proof.Machine
open Sys2Proof.Safety

/-! ## Fetch, decode and exec -/

/-- The block runs the operation that the fetched frame decodes to. -/
theorem operate_of_fetch {s u : State} {f : Frame} {i : Instr} (hf : fetch s = some (f, u))
    (hi : decode s.par f = .ok i) : operate s = exec i u := by
  simp only [operate, hf, hi]

/-- The idle block runs the first command presented to it. -/
theorem operate_presented {s : State} {c : Command} {rest : List Command} {i : Instr} (h : s.seq = .idle)
    (hc : s.cmds = c :: rest) (hi : decode s.par (.cmd c.cmd c.addr c.wdata) = .ok i) :
    operate s = exec i { s with cmds := rest } :=
  operate_of_fetch (by simp only [fetch, h, hc]) hi

/-- At a fixed sequence the block runs the row that its own bits decode to. -/
theorem operate_lineRow {s : State} {p : Pos} {l : LineSeq} {i : Instr} (h : s.seq = .busy p (.line l))
    (hi : decode s.par (lineFrame s.par l) = .ok i) : operate s = exec i s :=
  operate_of_fetch (by simp only [fetch, h]) hi

/-- Where `sendRequest` is called the block runs the generic request row. -/
theorem operate_sendRequest {s : State} {p : Pos} {t : Tx} (h : s.seq = .busy p (.issue t)) :
    operate s = exec (.req t.apndp t.rnw t.a32) s :=
  operate_of_fetch (by simp only [fetch, h]) (decode_sendRequest ..)

/-- At step Q1 the block runs the request row of the transaction's operands (R73, R115). -/
theorem operate_requestRow {s : State} {p : Pos} {t : Tx} {n : Nat} (h : s.seq = .busy p (.q1 t n)) :
    operate s = exec (requestRow t.apndp t.rnw t.a32) s :=
  operate_of_fetch (by simp only [fetch, h]) (decode_requestWord ..)

/-- In the data phase of a write the block runs the packet of the transaction's word (R77). -/
theorem operate_wdataRow {s : State} {p : Pos} {t : Tx} (h : s.seq = .busy p (.data t)) (hr : t.rnw = false) :
    operate s = exec (.wdata t.wdata) s :=
  operate_of_fetch (by simp [fetch, h, hr]) (decode_wdataWord ..)

/-- A listed read packet leaves its 34 bits. -/
theorem sampled_packet {s : State} {v : Word} {q b : Bool} {rest : List Bool}
    (h : s.wireIn = lsbf v ++ [q, b] ++ rest) :
    sampleBits 34 s = (lsbf v ++ [q, b],
      { s with wireIn := rest, trace := s.trace ++ samples (lsbf v ++ [q, b]) }) := by
  simpa [samples] using sampleBits_listed (lsbf v ++ [q, b]) rest s h

/-- In the data phase of a read the block runs the packet it samples (R78). -/
theorem operate_rdataRow {s : State} {p : Pos} {t : Tx} {v : Word} {q b : Bool} {rest : List Bool}
    (h : s.seq = .busy p (.data t)) (hr : t.rnw = true) (hw : s.wireIn = lsbf v ++ [q, b] ++ rest) :
    operate s = exec (.rdata v q b) { s with wireIn := rest, trace := s.trace ++ samples (lsbf v ++ [q, b]) } :=
  operate_of_fetch (by simp only [fetch, h, hr, if_true, sampled_packet hw, val_packet]) (decode_rdataWord ..)

/-- Settles O13: with the reset input low, ended or listed, the step is the operation of the idle block. -/
theorem stepRunsThePresentedCommand : Obligations.StepRunsThePresentedCommand := by
  unfold Obligations.StepRunsThePresentedCommand
  intro s c rest i hidle hcmds hdec
  constructor
  · intro hq
    rw [step_of_quiet s hq]
    exact operate_presented hidle hcmds hdec
  · intro r hr
    rw [step_of_low (by rw [hr]; nofun), hr]
    exact operate_presented hidle hcmds hdec

/-- Settles O14: each phase fetches its own frame, which decodes to its row. -/
theorem stepRunsTheWireFrame : Obligations.StepRunsTheWireFrame := by
  unfold Obligations.StepRunsTheWireFrame
  intro s p t n hq
  rw [step_of_quiet s hq]
  refine ⟨?lineReset, ?jtagToSwd, ?idle8, operate_sendRequest, operate_requestRow, ?ack, operate_wdataRow,
    fun v q b rest => operate_rdataRow⟩
  case lineReset | jtagToSwd | idle8 => exact fun h => operate_lineRow h (if_pos rfl)
  case ack => exact fun b c rest h hw => (step_of_quiet s hq).symm.trans (step_ack h hq hw)

/-! ## Every state -/

/-- Settles O16: nothing is fetched. -/
theorem idleBlockWaits : Obligations.IdleBlockWaits := by
  unfold Obligations.IdleBlockWaits
  intro s hq hidle hcmds
  rw [step_of_quiet s hq, operate_waits hidle hcmds]

/-- The block waits, accepts or answers a command, or takes a wire step: its operation always has a next state. -/
theorem exists_operate_eq_next (s : State) : ∃ t, operate s = .next t := by
  obtain hs | ⟨p, ph, hs⟩ := s.seq.idle_or_busy
  · cases hc : s.cmds with
    | nil => exact ⟨s, operate_waits hs hc⟩
    | cons c rest =>
      obtain ⟨t, ht, -⟩ := operate_accepts hs hc
      exact ⟨t, ht⟩
  · obtain ⟨-, t, -, ht, -⟩ := operate_wireStep hs
    exact ⟨t, ht⟩

/-- Settles O17: a step is the block's reset or one operation. -/
theorem everyStepAnswersANextState : Obligations.EveryStepAnswersANextState := by
  unfold Obligations.EveryStepAnswersANextState
  intro s
  by_cases hr : s.resetIn.head? = some true
  · obtain ⟨rest, hr⟩ := List.head?_eq_some_iff.1 hr
    exact ⟨_, step_of_high hr⟩
  · rw [step_of_low hr]
    exact exists_operate_eq_next _

/-- Settles O18: the decoder rejects the word, and the block answers it at once. -/
theorem illegalCommandChangesOnlyLatches : Obligations.IllegalCommandChangesOnlyLatches := by
  unfold Obligations.IllegalCommandChangesOnlyLatches
  intro s c rest hq hidle hcmds hillegal
  obtain ⟨e, he⟩ := (decodeCmd_error_iff c.cmd c.addr c.wdata).2 hillegal
  rw [step_of_quiet s hq, operate_command hidle hcmds, he]
  rfl

end Sys2Proof.Machine
end

section
/-! PROOFS. What the wire rows do at their own step, and rows and commands that are out of place (spec/30_encoding.md R72 to
R82, R104). -/

namespace Sys2Proof.Machine
open Sys2Proof.Safety

/-! ## Requests -/

/-- A request frame is driven, and an attempt that was at step Q1 awaits its acknowledgement. -/
theorem driveRequest_eq_requested (a r : Bool) (x : BitVec 2) (s : State) :
    driveRequest a r x s = .next (requested (reqFrame a r x) s) := by
  unfold driveRequest requested
  split
  next h => simp [goto, drive, drives, h]
  next h => simp [drive, drives]

/-- Settles O34: each row drives the frame of its operands, whose eight bits are the table's. -/
theorem requestRowsDriveTheirFrames : Obligations.RequestRowsDriveTheirFrames := by
  unfold Obligations.RequestRowsDriveTheirFrames
  intro s
  and_intros <;> exact driveRequest_eq_requested _ _ _ s

/-! ## Acknowledgements -/

/-- Settles O40: the five rows have one meaning, which is to raise NoAck after the `ACK_ERR_TRN` bits. -/
theorem undecodableAcksAreNoAck : Obligations.UndecodableAcksAreNoAck := by
  unfold Obligations.UndecodableAcksAreNoAck
  intro s p t n e rest i hi h hrole he hw
  have hexec : exec i s = ackRaises .noAck s := by
    obtain rfl | rfl | rfl | rfl | rfl := hi <;> rfl
  have hdiscard := discardBits_listed e rest s hw
  rw [he] at hdiscard
  simp only [hexec, ackRaises, h, hdiscard]
  rw [txError_eq p _ hrole (by decide)]
  rfl

/-- Where no acknowledgement is awaited every acknowledgement row changes nothing (log entry 6). -/
theorem exec_ack_idle {s : State} (par : Params) (c : BitVec 3) (h : s.seq = .idle) :
    exec (decodeAckCode par c) s = .next s := by
  have hraises (e : OpError) : ackRaises e s = .next s := by simp only [ackRaises, h]
  by_cases ho : c = par.ackOk
  · simp only [decodeAckCode, if_pos ho, exec, execAckOk, h]
  by_cases hw : c = par.ackWait
  · simp only [decodeAckCode, if_neg ho, if_pos hw, exec, execAckWait, h]
  by_cases hf : c = par.ackFault
  · simp only [decodeAckCode, if_neg ho, if_neg hw, if_pos hf, exec, execAckFault, hraises]
  obtain hrow | hrow | hrow | hrow | hrow := decodeAckCode_other ho hw hf <;> rw [hrow] <;> exact hraises .noAck

/-! ## Data packets -/

/-- A write packet in its data phase is driven, and the transaction has returned (R122, R129). -/
theorem exec_wdata {s : State} {p : Pos} {t : Tx} (v : Word) (h : s.seq = .busy p (.data t)) (hr : t.rnw = false) :
    exec (.wdata v) s = .next (txOk p t 0#32 (drive (wdataBits v ++ zeros s.par.postWriteIdle) s)) := by
  simp [exec, execWdata, h, hr]

/-- A read packet in its data phase returns its word if the parity agrees, and raises ParityError if not (R123, R124). -/
theorem exec_rdata {s : State} {p : Pos} {t : Tx} (v : Word) (q b : Bool) (h : s.seq = .busy p (.data t))
    (hr : t.rnw = true) :
    exec (.rdata v q b) s = .next (if parity32 v = q then txOk p t v s else txError p t .parity s) := by
  simp only [exec, execRdata, h, hr, if_true]
  split <;> rfl

/-- The access of a port command has returned: the command completes with Ok, a read with its word (R152, R153). -/
theorem txOk_port {a : Access} {t : Tx} (v : Word) (s : State) (hrole : t.role = .access) :
    txOk (.port a) t v s = answered 0x00#8 (if (accessTx a).rnw then v else 0#32) s := by
  simp only [txOk, hrole]
  cases a <;> rfl

/-- Settles O41: the packet is driven, then the transaction returns to a port command or to `selectBank`. -/
theorem wdataDrivesThePacketAndReturns : Obligations.WdataDrivesThePacketAndReturns := by
  unfold Obligations.WdataDrivesThePacketAndReturns
  intro s p t v h hr
  rw [exec_wdata v h hr]
  constructor
  case left =>
    rintro (⟨off, w, rfl⟩ | ⟨ap, reg, w, rfl⟩) hrole <;> rw [txOk_port _ _ hrole] <;> rfl
  case right =>
    intro b r x w hrole
    simp only [txOk, hrole]
    rfl

/-- Settles O42: the parity decides between the end of a port read and ParityError, which no role but the ABORT write's
discards. -/
theorem rdataIsCheckedBeforeItIsReturned : Obligations.RdataIsCheckedBeforeItIsReturned := by
  unfold Obligations.RdataIsCheckedBeforeItIsReturned
  intro s p t v q b h hr hrole
  rw [exec_rdata v q b h hr]
  constructor
  case left =>
    intro hq hp
    rw [if_pos hq]
    obtain ⟨off, rfl⟩ | ⟨ap, reg, rfl⟩ := hp <;> rw [txOk_port _ _ hrole] <;> rfl
  case right =>
    intro hq
    rw [if_neg hq, txError_eq p s (by rw [hrole]; nofun) (by decide)]

/-! ## Fixed sequences -/

/-- A fixed sequence at its own step is driven, and the step has returned. -/
theorem driveLine_at_step {s : State} {p : Pos} {l : LineSeq} (bits : List Bool) (h : s.seq = .busy p (.line l)) :
    driveLine l bits s = .next (stepDone p 0#32 (drive bits s)) := by
  simp [driveLine, h]

/-- A fixed sequence in the idle block is only driven (log entry 6). -/
theorem driveLine_idle {s : State} {l : LineSeq} (bits : List Bool) (h : s.seq = .idle) :
    driveLine l bits s = .next (drive bits s) := by
  simp only [driveLine, drive_seq, h]

/-- Settles O43: each row is at its own step, which the step table follows by the next. -/
theorem lineSequencesOfConnect : Obligations.LineSequencesOfConnect := by
  unfold Obligations.LineSequencesOfConnect
  intro s
  refine ⟨driveLine_at_step _, driveLine_at_step _, driveLine_at_step _, driveLine_at_step _, fun h => ?switchSeq⟩
  case switchSeq => rw [h]; rfl

/-! ## Out of place -/

/-- A command changes nothing while another executes (R95). -/
theorem exec_command_busy {i : Instr} {s : State} (hi : isCommand i = true) (h : s.seq ≠ .idle) :
    exec i s = .next s := by
  have hbusy (t : State) : whenIdle t s = s := if_neg h
  cases i with
  | connect | disconnect | reset | invalidate => exact congrArg Host.Outcome.next (hbusy _)
  | readmem | writemem => exact congrArg Host.Outcome.next (hbusy _)
  | readportDp | readportAp | writeportDp | writeportAp => exact congrArg Host.Outcome.next (hbusy _)
  | _ => cases hi

/-- A write packet in the idle block is only driven (log entry 6). -/
theorem exec_wdata_idle {s : State} (v : Word) (h : s.seq = .idle) :
    exec (.wdata v) s = .next (drive (wdataBits v ++ zeros s.par.postWriteIdle) s) := by
  simp only [exec, execWdata, drive_seq, h]

/-- Settles O44: the idle block only drives the rows it drives, and a busy block accepts no command. -/
theorem rowsOutOfPlaceGoNoFurther : Obligations.RowsOutOfPlaceGoNoFurther := by
  unfold Obligations.RowsOutOfPlaceGoNoFurther
  intro s
  constructor
  case left =>
    intro h
    refine ⟨driveLine_idle _ h, driveLine_idle _ h, driveLine_idle _ h, fun v => exec_wdata_idle v h,
      fun v q b => ?rdata, fun a r x => ?req, fun c => exec_ack_idle s.par c h⟩
    case rdata => simp only [exec, execRdata, h]
    case req => simp only [exec, execReq, h]
  case right =>
    intro h
    and_intros <;> intros <;> exact exec_command_busy rfl h

end Sys2Proof.Machine
end

section
/-! PROOFS. The acknowledgement rows and the transactions of spec/40_swd_transport.md (R113 to R121): what each
acknowledgement does at step Q2, the attempts under WAIT, and the port commands of the DP. -/

namespace Sys2Proof.Machine
open Sys2Proof.Safety

/-! ## Request frames (R72, R113) -/

/-- A request's word sent bit 0 first is its frame (R71, R72). -/
theorem lsbf_requestWord (a r : Bool) (x : BitVec 2) : lsbf (requestWord a r x) = reqFrame a r x := by
  revert a r x
  decide

/-- Settles O10: the parity is the exclusive or of the operand bits, and the decoder reads every request word. -/
theorem requestFrameLayout : Obligations.RequestFrameLayout := by
  unfold Obligations.RequestFrameLayout
  intro par a r x
  refine ⟨?_, lsbf_requestWord a r x, requestRow a r x, decode_requestWord par a r x⟩
  simp only [reqFrame, parity4, Bool.xor_assoc]

/-! ## One acknowledgement -/

/-- The state after bits that the environment lists have been sampled. -/
theorem afterSampling_listed {s : State} {bits rest : List Bool} (h : s.wireIn = bits ++ rest) :
    afterSampling bits.length s = { s with wireIn := rest, trace := s.trace ++ samples bits } :=
  (discardBits_eq _ s).symm.trans (discardBits_listed bits rest s h)

/-- Settles O36: the row goes to the data phase and does nothing else. -/
theorem ackOkLeadsToTheDataPhase : Obligations.AckOkLeadsToTheDataPhase := by
  unfold Obligations.AckOkLeadsToTheDataPhase
  intro s p t n h
  simp only [exec, execAckOk, h]
  rfl

/-- Settles O37: the one bit sampled is the listed one. -/
theorem ackWaitRetriesWithinTheBound : Obligations.AckWaitRetriesWithinTheBound := by
  unfold Obligations.AckWaitRetriesWithinTheBound
  intro s p t n b rest h hn hw
  rw [exec_ackWait_retry h hn]
  exact congrArg (fun u => Host.Outcome.next (goto p (.q1 t (n + 1)) u)) (afterSampling_listed (bits := [b]) hw)

/-- Settles O38: BusyError is not FaultError, so it is raised as it stands. -/
theorem ackWaitOnTheLastAttemptIsBusy : Obligations.AckWaitOnTheLastAttemptIsBusy := by
  unfold Obligations.AckWaitOnTheLastAttemptIsBusy
  intro s p t n e rest h hn hrole he hw
  rw [exec_ackWait_last h hn, txError_eq p _ hrole (by decide), ← he, afterSampling_listed hw]

/-- Settles O39: FaultError of any transaction but the ABORT write calls the ABORT write. -/
theorem ackFaultLeadsToOneAbortWrite : Obligations.AckFaultLeadsToOneAbortWrite := by
  unfold Obligations.AckFaultLeadsToOneAbortWrite
  intro s p t n e rest h hrole he hw
  rw [exec_ackFault h, txError_fault p _ hrole, ← he, afterSampling_listed hw]
  rfl

/-! ## DP registers through the port (R141 to R143, R152, R153) -/

/-- READPORT of a DP register begins its access. -/
theorem exec_readportDp {s : State} {reg : BitVec 8} (h : Admits s) (hreg : WellFormed (.readportDp reg)) :
    exec (.readportDp reg) s = .next (enter (.port (.dpRead reg)) s) := by
  have hlegal : alignedReg reg ∧ dpOffset reg := of_decide_eq_true hreg
  simp only [exec, execReadportDp, whenIdle, if_pos h.idle, startPort, if_neg (not_not_intro hlegal), if_pos h.ready]

/-- WRITEPORT of a DP register begins its access. -/
theorem exec_writeportDp {s : State} {reg : BitVec 8} {v : Word} (h : Admits s)
    (hreg : WellFormed (.writeportDp reg v)) :
    exec (.writeportDp reg v) s = .next (enter (.port (.dpWrite reg v)) s) := by
  have hlegal : alignedReg reg ∧ dpOffset reg := of_decide_eq_true hreg
  simp only [exec, execWriteportDp, whenIdle, if_pos h.idle, startPort, if_neg (not_not_intro hlegal), if_pos h.ready]

/-- A DP write empties the cache if it writes SELECT, and its transaction is next (R142, R143). -/
theorem startAccess_dpWrite (p : Pos) (off : BitVec 8) (v : Word) (s : State) :
    startAccess p (.dpWrite off v) s = goto p (.issue (accessTx (.dpWrite off v)))
      { s with sel := if off = 0x08#8 then none else s.sel } := by
  show goto p _ (if off = 0x08#8 then _ else _) = _
  split_ifs <;> rfl

/-- Settles O29: the access is one read transaction, whose word completes the command. -/
theorem readportDpIsOneTransaction : Obligations.ReadportDpIsOneTransaction := by
  unfold Obligations.ReadportDpIsOneTransaction
  intro s reg v t u rest hidle hready hquiet hreg hw
  exact ⟨_, exec_readportDp ⟨hidle, hready, hquiet⟩ hreg, Eq.trans (steps_read rfl rfl hquiet hw) rfl⟩

/-- Settles O30: the access is one write transaction, begun with the cache emptied if it writes SELECT. -/
theorem writeportDpIsOneTransaction : Obligations.WriteportDpIsOneTransaction := by
  unfold Obligations.WriteportDpIsOneTransaction
  intro s reg v t rest hidle hready hquiet hreg hw
  refine ⟨_, exec_writeportDp ⟨hidle, hready, hquiet⟩ hreg, ?_⟩
  show steps 4 (startAccess _ (.dpWrite reg v) s) = _
  rw [startAccess_dpWrite]
  exact Eq.trans (steps_write rfl rfl hquiet hw) rfl

/-! ## Runs and errors -/

/-- Two runs, one after the other, whose numbers of steps add up to that of the whole. -/
theorem steps_trans {j k m : Nat} {s u : State} {o : Host.Outcome State Fault Refusal} (h : steps j s = .next u)
    (h' : steps k u = o) (hm : m = j + k := by omega) : steps m s = o := by
  rw [hm, steps_add h, h']

/-- Where the sequencer stood is no part of what an error leads to. -/
theorem erred_withSeq (p : Pos) (e : OpError) (s : State) (q : Sequencer) :
    erred p e s = erred p e { s with seq := q } := by
  unfold erred
  split <;> rfl

/-! ## The steps of `sendRequest` with listed answers (R115 to R120)

The state before each step is written out after it, so that runs are joined by giving the next step's state. -/

section Requests

variable {s : State} {p : Pos} {t : Tx} {n : Nat} {trn : Bool} {c : BitVec 3} {e rest : List Bool}

/-- At Q1 the frame is driven, and the acknowledgement is awaited. -/
theorem step_q1 (h : s.seq = .busy p (.q1 t n)) (hq : s.resetIn = []) :
    step s = .next { s with
      seq := .busy p (.q2 t n), trace := s.trace ++ drives (reqFrame t.apndp t.rnw t.a32) } := by
  rw [step_of_quiet s hq, operate_q1 h]
  rfl

/-- OK: the data phase is next (R116). -/
theorem step_ackOk (h : s.seq = .busy p (.q2 t n)) (hq : s.resetIn = [])
    (hw : s.wireIn = ackBits trn s.par.ackOk ++ rest) :
    step s = .next { s with
      seq := .busy p (.data t), wireIn := rest, trace := s.trace ++ samples (ackBits trn s.par.ackOk) } := by
  rw [step_ack h hq hw, decodeAckCode_ok]
  exact ackOkLeadsToTheDataPhase _ p t n h

/-- WAIT with attempts left: the turnaround bit is sampled and the next attempt is at Q1 (R118). -/
theorem step_ackWait_retry {b : Bool} (h : s.seq = .busy p (.q2 t n)) (hq : s.resetIn = [])
    (hd : s.par.ackWait ≠ s.par.ackOk) (hn : n < s.par.waitRetryBound)
    (hw : s.wireIn = ackBits trn s.par.ackWait ++ (b :: rest)) :
    step s = .next { s with
      seq := .busy p (.q1 t (n + 1))
      wireIn := rest
      trace := s.trace ++ samples (ackBits trn s.par.ackWait) ++ samples [b] } := by
  rw [step_ack h hq hw, decodeAckCode_wait hd]
  exact ackWaitRetriesWithinTheBound _ p t n b rest h hn rfl

/-- An acknowledgement that raises another error than FaultError: the error is the step's, wherever the sequencer stood
(R119, R120, R140). -/
theorem step_ack_erred {q : Sequencer} {x : OpError} (h : s.seq = .busy p (.q2 t n)) (hq : s.resetIn = [])
    (hrole : t.role ≠ .clear) (he : e.length = s.par.ackErrTrn.val) (ho : c ≠ s.par.ackOk)
    (hb : c = s.par.ackWait → s.par.waitRetryBound ≤ n) (hx : ackError s.par c = x) (hf : x ≠ .fault)
    (hw : s.wireIn = ackBits trn c ++ (e ++ rest)) :
    step s = .next (erred p x
      { s with seq := q, wireIn := rest, trace := s.trace ++ samples (ackBits trn c) ++ samples e }) := by
  rw [step_ack_raises h hq hw he ho hb, hx, txError_eq p _ hrole hf, erred_withSeq p _ _ q]

/-- A last WAIT stands for BusyError, and an undecodable code for NoAckError (R119, R120). -/
theorem ackError_wait (par : Params) : ackError par par.ackWait = .busy := if_pos rfl

theorem ackError_undecodable {par : Params} (h : undecodable par c) : ackError par c = .noAck := by
  obtain ⟨-, hw, hf⟩ := h
  rw [ackError, if_neg hw, if_neg hf]

/-- WAIT on the last attempt: BusyError (R119). -/
theorem step_lastWait {q : Sequencer} (h : s.seq = .busy p (.q2 t n)) (hq : s.resetIn = []) (hrole : t.role ≠ .clear)
    (he : e.length = s.par.ackErrTrn.val) (hd : s.par.ackWait ≠ s.par.ackOk) (hn : s.par.waitRetryBound ≤ n)
    (hw : s.wireIn = ackBits trn s.par.ackWait ++ (e ++ rest)) :
    step s = .next (erred p .busy
      { s with seq := q, wireIn := rest, trace := s.trace ++ samples (ackBits trn s.par.ackWait) ++ samples e }) :=
  step_ack_erred h hq hrole he hd (fun _ => hn) (ackError_wait _) nofun hw

/-- An undecodable code: NoAckError (R120). -/
theorem step_undecodable {q : Sequencer} (h : s.seq = .busy p (.q2 t n)) (hq : s.resetIn = []) (hrole : t.role ≠ .clear)
    (he : e.length = s.par.ackErrTrn.val) (hc : undecodable s.par c) (hw : s.wireIn = ackBits trn c ++ (e ++ rest)) :
    step s = .next (erred p .noAck
      { s with seq := q, wireIn := rest, trace := s.trace ++ samples (ackBits trn c) ++ samples e }) := by
  have ⟨hok, hwait, _⟩ := hc
  exact step_ack_erred h hq hrole he hok (fun hw' => absurd hw' hwait) (ackError_undecodable hc) nofun hw

/-- FAULT: the ABORT write is called (R117, R140). -/
theorem step_ackFault (h : s.seq = .busy p (.q2 t n)) (hq : s.resetIn = []) (hd : s.par.distinctAcks)
    (hrole : t.role ≠ .clear) (he : e.length = s.par.ackErrTrn.val)
    (hw : s.wireIn = ackBits trn s.par.ackFault ++ (e ++ rest)) :
    step s = .next { s with
      seq := .busy p (.issue clearTx)
      wireIn := rest
      trace := s.trace ++ samples (ackBits trn s.par.ackFault) ++ samples e } := by
  rw [step_ack h hq hw, decodeAckCode_fault hd]
  exact ackFaultLeadsToOneAbortWrite _ p t n e rest h hrole he rfl

/-! ## The attempts of a transaction (R118, R121) -/

/-- Attempts answered WAIT below the bound: after two steps each, the next attempt is at Q1. -/
theorem steps_waits (l : List (Bool × Bool)) (h : s.seq = .busy p (.q1 t n)) (hq : s.resetIn = [])
    (hd : s.par.ackWait ≠ s.par.ackOk) (hn : n + l.length ≤ s.par.waitRetryBound)
    (hw : s.wireIn = waitAnswers s.par l ++ rest) :
    steps (2 * l.length) s = .next { s with
      seq := .busy p (.q1 t (n + l.length))
      wireIn := rest
      trace := s.trace ++ waitEvents s.par t.apndp t.rnw t.a32 l } := by
  induction l generalizing s n with
  | nil =>
    cases s
    simp_all [waitAnswers, waitEvents]
  | cons w l ih =>
    obtain ⟨trn, b⟩ := w
    rw [List.length_cons] at hn
    have hw' : s.wireIn = ackBits trn s.par.ackWait ++ (b :: (waitAnswers s.par l ++ rest)) := by
      simpa [waitAnswers] using hw
    have hn' : n < s.par.waitRetryBound := by omega
    have hl : n + 1 + l.length ≤ s.par.waitRetryBound := by omega
    refine steps_trans (k := 2 * l.length + 1) (steps_one (step_q1 h hq)) ?_ (by simp; omega)
    refine steps_trans (k := 2 * l.length) (steps_one (step_ackWait_retry rfl hq hd hn' hw')) ?_
    refine Eq.trans (ih rfl hq hd hl rfl) ?_
    simp [waitEvents, Nat.add_assoc, Nat.add_comm 1]

/-- From the call of `sendRequest` through attempts answered WAIT to the acknowledgement of the one after them. -/
theorem steps_waited (l : List (Bool × Bool)) (h : s.seq = .busy p (.issue t)) (hq : s.resetIn = [])
    (hd : s.par.ackWait ≠ s.par.ackOk) (hn : l.length < s.par.waitRetryBound)
    (hw : s.wireIn = waitAnswers s.par l ++ rest) :
    steps (2 * l.length + 2) s = .next { s with
      seq := .busy p (.q2 t (1 + l.length))
      wireIn := rest
      trace := s.trace ++ waitEvents s.par t.apndp t.rnw t.a32 l ++ drives (reqFrame t.apndp t.rnw t.a32) } := by
  refine steps_trans (k := 2 * l.length + 1) (steps_one ((step_of_quiet s hq).trans (operate_issue h))) ?_
  refine steps_trans (k := 1) (steps_waits l rfl hq hd (by rw [Nat.add_comm]; exact hn) hw) ?_
  exact steps_one (step_q1 rfl hq)

/-- WAIT on every attempt: BusyError is raised after the last (R119, R121). -/
theorem steps_busy (l : List (Bool × Bool)) (h : s.seq = .busy p (.issue t)) (hq : s.resetIn = [])
    (hd : s.par.ackWait ≠ s.par.ackOk) (hl : l.length + 1 = s.par.waitRetryBound) (hrole : t.role ≠ .clear)
    (he : e.length = s.par.ackErrTrn.val)
    (hw : s.wireIn = waitAnswers s.par l ++ (ackBits trn s.par.ackWait ++ (e ++ rest))) :
    steps (2 * l.length + 3) s = .next (erred p .busy { s with
      wireIn := rest
      trace := s.trace ++ waitEvents s.par t.apndp t.rnw t.a32 l ++ drives (reqFrame t.apndp t.rnw t.a32) ++
        samples (ackBits trn s.par.ackWait) ++ samples e }) := by
  have hlast : s.par.waitRetryBound ≤ 1 + l.length := by omega
  refine steps_trans (k := 1) (steps_waited l h hq hd (by omega) hw) (steps_one ?_)
  exact step_lastWait rfl hq hrole he hd hlast rfl

end Requests

/-- Settles O45: the attempt after the WAITs is answered OK, or is the last and answered WAIT. -/
theorem waitRetryBoundLaw : Obligations.WaitRetryBoundLaw := by
  unfold Obligations.WaitRetryBoundLaw
  intro s p t l b rest h hq hd
  constructor
  case left =>
    intro hn hw
    rw [List.append_assoc] at hw
    exact steps_trans (k := 1) (steps_waited l h hq hd hn hw) (steps_one (step_ackOk rfl hq rfl))
  case right =>
    intro e hl hrole he hw
    rw [List.append_assoc, List.append_assoc] at hw
    exact steps_busy l h hq hd hl hrole he hw

end Sys2Proof.Machine
end

section
/-! PROOFS. Failed transactions: a FAULT with its ABORT write, a SELECT write that fails, and an error inside CONNECT
(spec/41_port_register_space.md R140, R147, R150; spec/43_debug_session.md R204, R206). -/

namespace Sys2Proof.Machine
open Sys2Proof.Safety

section Failures

variable {s : State} {p : Pos} {t : Tx} {n : Nat} {trn trn' : Bool} {c : BitVec 3} {e e' rest : List Bool}

/-! ## From the acknowledgement or packet to the error

An error overwrites the sequencer, so a lemma leaves open where it stood in the state that `erred` is given. -/

/-- An undecodable acknowledgement of the first attempt raises NoAck (R120). -/
theorem steps_noAck (h : s.seq = .busy p (.issue t)) (hq : s.resetIn = []) (hrole : t.role ≠ .clear)
    (he : e.length = s.par.ackErrTrn.val) (hc : undecodable s.par c)
    (hw : s.wireIn = ackBits trn c ++ (e ++ rest)) :
    steps 3 s = .next (erred p .noAck { s with
      wireIn := rest
      trace := s.trace ++ drives (reqFrame t.apndp t.rnw t.a32) ++ samples (ackBits trn c) ++ samples e }) :=
  steps_trans (k := 1) (steps_requested h hq) (steps_one (step_undecodable rfl hq hrole he hc hw))

/-- The ABORT write ends in FaultError, whether it returns or raises (R150). -/
theorem txOk_clearTx (p : Pos) (v : Word) (s : State) : txOk p clearTx v s = erred p .fault s := raise_eq p .fault s

theorem txError_clearTx (p : Pos) (x : OpError) (s : State) : txError p clearTx x s = erred p .fault s :=
  raise_eq p .fault s

/-- The ABORT write acknowledged OK returns after four steps, and FaultError is raised (R150). -/
theorem steps_abortWrite {q : Sequencer} (h : s.seq = .busy p (.issue clearTx)) (hq : s.resetIn = [])
    (hw : s.wireIn = ackBits trn s.par.ackOk ++ rest) :
    steps 4 s = .next (erred p .fault { s with
      seq := q, wireIn := rest, trace := s.trace ++ writeEvents s.par false 0#2 0x00000004#32 trn }) := by
  rw [steps_write h rfl hq hw, txOk_clearTx, erred_withSeq p _ _ q]
  rfl

/-- The ABORT write that fails: its own error is discarded for FaultError (R150). -/
theorem step_abortWrite_fails {q : Sequencer} (h : s.seq = .busy p (.q2 clearTx n)) (hq : s.resetIn = [])
    (he : e.length = s.par.ackErrTrn.val) (ho : c ≠ s.par.ackOk) (hb : c = s.par.ackWait → s.par.waitRetryBound ≤ n)
    (hw : s.wireIn = ackBits trn c ++ (e ++ rest)) :
    step s = .next (erred p .fault
      { s with seq := q, wireIn := rest, trace := s.trace ++ samples (ackBits trn c) ++ samples e }) := by
  rw [step_ack_raises h hq hw he ho hb, txError_clearTx, erred_withSeq p _ _ q]

/-- A FAULT whose ABORT write is acknowledged OK: FaultError is raised after the ABORT write (R140, R150). -/
theorem steps_fault (h : s.seq = .busy p (.q2 t n)) (hq : s.resetIn = []) (hd : s.par.distinctAcks)
    (hrole : t.role ≠ .clear) (he : e.length = s.par.ackErrTrn.val)
    (hw : s.wireIn = ackBits trn s.par.ackFault ++ (e ++ (ackBits trn' s.par.ackOk ++ rest))) :
    steps 5 s = .next (erred p .fault { s with
      wireIn := rest
      trace := s.trace ++ samples (ackBits trn s.par.ackFault) ++ samples e ++
        writeEvents s.par false 0#2 0x00000004#32 trn' }) :=
  steps_trans (k := 4) (steps_one (step_ackFault h hq hd hrole he hw)) (steps_abortWrite rfl hq rfl)

/-- A FAULT whose ABORT write fails: FaultError is raised all the same, after one ABORT request (R150). -/
theorem steps_fault_abortWrite_fails (h : s.seq = .busy p (.q2 t n)) (hq : s.resetIn = []) (hd : s.par.distinctAcks)
    (hrole : t.role ≠ .clear) (he : e.length = s.par.ackErrTrn.val) (he' : e'.length = s.par.ackErrTrn.val)
    (ho : c ≠ s.par.ackOk) (hb : c = s.par.ackWait → s.par.waitRetryBound ≤ 1)
    (hw : s.wireIn = ackBits trn s.par.ackFault ++ (e ++ (ackBits trn' c ++ (e' ++ rest)))) :
    steps 4 s = .next (erred p .fault { s with
      wireIn := rest
      trace := s.trace ++ samples (ackBits trn s.par.ackFault) ++ samples e ++ drives (reqFrame false false 0#2) ++
        samples (ackBits trn' c) ++ samples e' }) := by
  refine steps_trans (k := 3) (steps_one (step_ackFault h hq hd hrole he hw)) ?_
  refine steps_trans (k := 1) (steps_requested rfl hq) (steps_one ?_)
  exact step_abortWrite_fails rfl hq he' ho hb rfl

/-- A read packet with bad parity raises ParityError (R124). -/
theorem step_badParity {q : Sequencer} {v : Word} {x b : Bool} (h : s.seq = .busy p (.data t)) (hq : s.resetIn = [])
    (hr : t.rnw = true) (hrole : t.role ≠ .clear) (hx : parity32 v ≠ x) (hw : s.wireIn = lsbf v ++ [x, b] ++ rest) :
    step s = .next (erred p .parity
      { s with seq := q, wireIn := rest, trace := s.trace ++ samples (lsbf v ++ [x, b]) }) := by
  have hexec := exec_rdata (s := { s with wireIn := rest, trace := s.trace ++ samples (lsbf v ++ [x, b]) }) v x b h hr
  rw [step_of_quiet s hq, operate_rdataRow h hr hw, hexec, if_neg hx]
  rw [txError_eq (e := .parity) p _ hrole nofun, erred_withSeq p _ _ q]

/-! ## From the error to the response -/

/-- Outside CONNECT an error answers the command (R245). -/
theorem erred_outside (hp : inConnect p = false) (x : OpError) (s : State) :
    erred p x s = answered (errorStatus x) 0#32 s := by
  rw [erred, hp]
  rfl

/-- A fixed sequence is driven, and its step has returned. -/
theorem step_line {l : LineSeq} (h : s.seq = .busy p (.line l)) (hq : s.resetIn = []) :
    step s = .next (stepDone p 0#32 { s with trace := s.trace ++ drives (lineBits s.par l) }) := by
  rw [step_of_quiet s hq, operate_line h]
  rfl

/-- In CONNECT the step after an error drives the line reset and answers ConnectError from the closed session (R204,
R206). -/
theorem step_erred_inConnect {x : OpError} (hp : inConnect p = true) (hq : s.resetIn = []) :
    step (erred p x s) = .next (answered (connectErrorStatus x) 0#32 (disconnected s)) := by
  rw [erred, if_pos hp]
  refine Eq.trans (step_line rfl hq) ?_
  cases x <;> rfl

/-! ## A SELECT write that fails (R147, R178) -/

/-- WRITEPORT of an AP register enters its access. -/
theorem exec_writeportAp {ap reg : BitVec 8} {v : Word} (h : Admits s) (hreg : alignedReg reg) :
    exec (.writeportAp ap reg v) s = .next (enter (.port (.apWrite ap reg v)) s) := by
  simp only [exec, execWriteportAp, whenIdle, if_pos h.idle, startPort, if_neg (not_not_intro hreg), if_pos h.ready]

/-- READMEM enters its CSW write (R177). -/
theorem exec_readmem {code : WidthCode} {addr : Word} (h : Admits s) :
    exec (.readmem code addr) s = .next (enter (.m2 ⟨false, decodeWidth code s, addr, 0#32⟩) s) := by
  simp only [exec, execReadmem, whenIdle, if_pos h.idle, startMem, if_pos h.ready]

/-- WRITEMEM enters its CSW write (R175). -/
theorem exec_writemem {code : WidthCode} {addr v : Word} (h : Admits s) :
    exec (.writemem code addr v) s = .next (enter (.m2 ⟨true, decodeWidth code s, addr, v⟩) s) := by
  simp only [exec, execWritemem, whenIdle, if_pos h.idle, startMem, if_pos h.ready]

/-- The SELECT write of a step outside CONNECT is called, with the cache empty. -/
def CallsSelect (b : Bank) (s u : State) : Prop :=
  ∃ p r x w, inConnect p = false ∧ u = { s with sel := none, seq := .busy p (.issue (selectTx b r x w)) }

/-- `selectBank` on a miss empties the cache and calls the SELECT write (R146). -/
theorem callsSelect_startAp {b : Bank} (hp : inConnect p = false) (hmiss : s.sel ≠ some b) :
    CallsSelect b s (startAp p b t s) :=
  ⟨p, t.rnw, t.a32, t.wdata, hp, by rw [startAp, if_neg hmiss]; rfl⟩

/-- A port command whose bank is not in the cache calls the SELECT write. -/
theorem exec_portAp_callsSelect {i : Instr} {ap reg : BitVec 8} {v : Word} (h : Admits s) (hwf : WellFormed i)
    (hi : i = .readportAp ap reg ∨ i = .writeportAp ap reg v) (hmiss : s.sel ≠ some (bankOf ap reg)) :
    ∃ u, exec i s = .next u ∧ CallsSelect (bankOf ap reg) s u := by
  obtain rfl | rfl := hi
  · exact ⟨_, exec_readportAp h (of_decide_eq_true hwf), callsSelect_startAp rfl hmiss⟩
  · exact ⟨_, exec_writeportAp h (of_decide_eq_true hwf), callsSelect_startAp rfl hmiss⟩

/-- A memory command calls the SELECT write for CSW's bank when the cache does not hold it. -/
theorem exec_mem_callsSelect {i : Instr} {code : WidthCode} {addr v : Word} (h : Admits s)
    (hi : i = .readmem code addr ∨ i = .writemem code addr v) (hmiss : s.sel ≠ some ⟨s.par.memapIndex, 0#4⟩) :
    ∃ u, exec i s = .next u ∧ CallsSelect ⟨s.par.memapIndex, 0#4⟩ s u := by
  obtain rfl | rfl := hi
  · exact ⟨_, exec_readmem h, callsSelect_startAp rfl hmiss⟩
  · exact ⟨_, exec_writemem h, callsSelect_startAp rfl hmiss⟩

end Failures

/-! ## The statements -/

/-- Settles O46: the FAULT calls the ABORT write, which returns with FaultError. -/
theorem faultIsClearedThenReported : Obligations.FaultIsClearedThenReported := by
  unfold Obligations.FaultIsClearedThenReported
  intro s p t n f b e rest h hq hd hrole he hw
  rw [List.append_assoc, List.append_assoc] at hw
  exact steps_fault h hq hd hrole he hw

/-- Settles O49: each way to fail raises its error, and the disconnect sequence answers with it. -/
theorem connectErrorsEndDisconnected : Obligations.ConnectErrorsEndDisconnected := by
  unfold Obligations.ConnectErrorsEndDisconnected
  intro s p hp hq
  refine ⟨?raised, ?undecodable, ?lastWait, ?fault, ?abortFails, ?badParity⟩
  case raised =>
    intro x
    rw [raise_eq, step_erred_inConnect hp hq]
  case undecodable =>
    intro t n b c e rest h hrole he hc hw
    rw [List.append_assoc] at hw
    exact steps_trans (k := 1) (steps_one (step_undecodable h hq hrole he hc hw))
      (steps_one (step_erred_inConnect hp hq))
  case lastWait =>
    intro t n b e rest h hrole he hd hn hw
    rw [List.append_assoc] at hw
    exact steps_trans (k := 1) (steps_one (step_lastWait h hq hrole he hd hn hw))
      (steps_one (step_erred_inConnect hp hq))
  case fault =>
    intro t n f b e rest h hrole he hd hw
    rw [List.append_assoc, List.append_assoc] at hw
    exact steps_trans (k := 1) (steps_fault h hq hd hrole he hw)
      (steps_one (step_erred_inConnect hp hq))
  case abortFails =>
    intro n b c e rest h he ho hb hw
    rw [List.append_assoc] at hw
    exact steps_trans (k := 1) (steps_one (step_abortWrite_fails h hq he ho hb hw))
      (steps_one (step_erred_inConnect hp hq))
  case badParity =>
    intro t v x b rest h hr hrole hx hw
    have hrole' : t.role ≠ .clear := by rw [hrole]; nofun
    exact steps_trans (k := 1) (steps_one (step_badParity h hq hr hrole' hx hw))
      (steps_one (step_erred_inConnect hp hq))

/-- Settles O48: the command calls the SELECT write with the cache empty, and each failure of it answers the command. -/
theorem failedSelectEmptiesTheCache : Obligations.FailedSelectEmptiesTheCache := by
  unfold Obligations.FailedSelectEmptiesTheCache
  intro s ap reg code addr v i bank b e rest hidle hready hq hd hwf hi hmiss he
  have hadmits : Admits s := ⟨hidle, hready, hq⟩
  have hcalls : ∃ u, exec i s = .next u ∧ CallsSelect bank s u := by
    obtain ⟨hi, rfl⟩ | ⟨hi, rfl⟩ := hi
    · exact exec_portAp_callsSelect hadmits hwf hi hmiss
    · exact exec_mem_callsSelect hadmits hi hmiss
  obtain ⟨u, hexec, p, r, x, w, hp, rfl⟩ := hcalls
  have hrole : (selectTx bank r x w).role ≠ .clear := nofun
  refine ⟨_, hexec, ?undecodable, ?lastWait, ?fault, ?abortFails⟩
  case undecodable =>
    intro c hc hw
    rw [List.append_assoc] at hw
    exact Eq.trans (steps_noAck rfl hq hrole he hc hw) (congrArg _ (erred_outside hp ..))
  case lastWait =>
    intro l hl hw
    rw [List.append_assoc, List.append_assoc] at hw
    exact Eq.trans (steps_busy l rfl hq hd.1.symm hl hrole he hw) (congrArg _ (erred_outside hp ..))
  case fault =>
    intro b' hw
    rw [List.append_assoc, List.append_assoc] at hw
    refine steps_trans (k := 5) (steps_requested rfl hq) ?_
    exact Eq.trans (steps_fault rfl hq hd hrole he hw) (congrArg _ (erred_outside hp ..))
  case abortFails =>
    intro b' c e' ho hb he' hw
    rw [List.append_assoc, List.append_assoc, List.append_assoc] at hw
    refine steps_trans (k := 4) (steps_requested rfl hq) ?_
    exact Eq.trans (steps_fault_abortWrite_fails rfl hq hd hrole he he' ho hb hw) (congrArg _ (erred_outside hp ..))

end Sys2Proof.Machine
end

section
/-! PROOFS. CONNECT answered OK throughout (spec/43_debug_session.md R180, R185, R203): the preamble C0 to C2, the
setup C3 to C6, powerUp U1 to U3, and negotiateWidth N1 and N2. -/

namespace Sys2Proof.Machine
open Sys2Proof.Safety

section Connect

variable {s : State} {v : Word} {trn trn' : Bool} {rest : List Bool}

/-- In Disconnected CONNECT opens the link and begins with the line reset of C1. -/
theorem exec_connect (hidle : s.seq = .idle) (hsess : s.sess = .disconnected) :
    exec .connect s = .next (startConnect s) := by
  simp only [exec, execConnect, whenIdle, if_pos hidle, if_pos hsess]

/-- C1 and C2 drive the four sequences of the preamble, and C3 is next (R125, R126). -/
theorem steps_preamble (h : s.seq = .busy .c1 (.line .lineReset)) (hq : s.resetIn = []) :
    steps 4 s = .next { s with
      seq := .busy .c3 (.issue (accessTx (.dpRead 0x00#8)))
      trace := s.trace ++ drives (ones s.par.nLineReset) ++ drives (lsbf s.par.switchSeq) ++
        drives (ones s.par.nLineReset) ++ drives (zeros s.par.nIdleAfterSwitch) } := by
  refine steps_trans (k := 3) (steps_one (step_line h hq)) ?_
  refine steps_trans (k := 2) (steps_one (step_line rfl hq)) ?_
  refine steps_trans (k := 1) (steps_one (step_line rfl hq)) ?_
  exact Eq.trans (steps_one (step_line rfl hq)) rfl

/-- C3 to C6 latch the IDCODE and write ABORT, CTRLSTAT and SELECT, and U1 is next with the cache empty (R203). -/
theorem steps_setup {t₂ t₃ t₄ : Bool} (h : s.seq = .busy .c3 (.issue (accessTx (.dpRead 0x00#8)))) (hq : s.resetIn = [])
    (hw : s.wireIn = readAnswer s.par trn v trn' ++ (ackBits t₂ s.par.ackOk ++ (ackBits t₃ s.par.ackOk ++
      (ackBits t₄ s.par.ackOk ++ rest)))) :
    steps 16 s = .next { s with
      seq := .busy .u1 (.issue (accessTx (.dpWrite 0x08#8 0#32)))
      sess := .synced
      sel := none
      idcode := some v
      wireIn := rest
      trace := s.trace ++ readEvents s.par false 0#2 trn v trn' ++ writeEvents s.par false 0#2 0x0000001F#32 t₂ ++
        writeEvents s.par false 1#2 0x00000F00#32 t₃ ++ writeEvents s.par false 2#2 0x00000000#32 t₄ } := by
  refine steps_trans (k := 12) (steps_read h rfl hq hw) ?_
  refine steps_trans (k := 8) (steps_write rfl rfl hq rfl) ?_
  refine steps_trans (k := 4) (steps_write rfl rfl hq rfl) ?_
  exact Eq.trans (steps_write rfl rfl hq rfl) rfl

/-- Below its bound a poll read begins (R187). -/
theorem startPoll_below {n : Nat} (h : s.par.powerupPollBound ≠ some n) : startPoll n s = enter (.u3 n) s := if_neg h

/-- U2 writes CTRLSTAT, and the first poll read is next (R185). -/
theorem steps_u2 (h : s.seq = .busy .u2 (.issue (accessTx (.dpWrite 0x04#8 ctrlstatPowerUp)))) (hq : s.resetIn = [])
    (hbound : s.par.powerupPollBound ≠ some 0) (hw : s.wireIn = ackBits trn s.par.ackOk ++ rest) :
    steps 4 s = .next { s with
      seq := .busy (.u3 0) (.issue (accessTx (.dpRead 0x04#8)))
      wireIn := rest
      trace := s.trace ++ writeEvents s.par false 1#2 0x50000F00#32 trn } :=
  (steps_write h rfl hq hw).trans (congrArg Host.Outcome.next (startPoll_below hbound))

/-- A poll read with both power-up acks ends powerUp, and the SELECT write of N1 is next (R180, R186). -/
theorem steps_poll_acked {n : Nat} (h : s.seq = .busy (.u3 n) (.issue (accessTx (.dpRead 0x04#8))))
    (hq : s.resetIn = []) (hmiss : s.sel ≠ some ⟨s.par.memapIndex, 0#4⟩) (hack : powerUpAcked v = true)
    (hw : s.wireIn = readAnswer s.par trn v trn' ++ rest) :
    steps 4 s = .next { s with
      seq := .busy .n1 (.issue (selectTx ⟨s.par.memapIndex, 0#4⟩ false 0#2 (cswValue s.par .w8)))
      sess := .poweredUp
      sel := none
      wireIn := rest
      trace := s.trace ++ readEvents s.par false 1#2 trn v trn' } :=
  (steps_read h rfl hq hw).trans (congrArg Host.Outcome.next ((if_pos hack).trans (if_neg hmiss)))

/-- N1 writes CSW under its bank, and the CSW read of N2 is next (R180). -/
theorem steps_n1 (h : s.seq = .busy .n1 (.issue (accessTx (.apWrite s.par.memapIndex 0x00#8 (cswValue s.par .w8)))))
    (hq : s.resetIn = []) (hsel : s.sel = some ⟨s.par.memapIndex, 0#4⟩)
    (hw : s.wireIn = ackBits trn s.par.ackOk ++ rest) :
    steps 4 s = .next { s with
      seq := .busy .n2 (.issue (accessTx (.apRead s.par.memapIndex 0x00#8)))
      wireIn := rest
      trace := s.trace ++ writeEvents s.par true 0#2 (cswValue s.par .w8) trn } :=
  (steps_write h rfl hq hw).trans (congrArg Host.Outcome.next (if_pos hsel))

/-- N2 reads back the 8-bit size code, and CONNECT completes in Ready with width 8 (R180, R182). -/
theorem steps_n2_accepted (h : s.seq = .busy .n2 (.issue (accessTx (.apRead s.par.memapIndex 0x00#8))))
    (hq : s.resetIn = []) (hsize : sizeAccepted .w8 v = true) (hw : s.wireIn = readAnswer s.par trn v trn' ++ rest) :
    steps 4 s = .next (answered 0x00#8 0#32 { s with
      sess := .ready
      width := some .w8
      wireIn := rest
      trace := s.trace ++ readEvents s.par true 0#2 trn v trn' }) :=
  (steps_read h rfl hq hw).trans (congrArg Host.Outcome.next (if_pos hsize))

end Connect

/-- Settles O20: the preamble, then the ten transactions, each of which leads to the step of the next. -/
theorem connectReachesReadyWithWidth8 : Obligations.ConnectReachesReadyWithWidth8 := by
  unfold Obligations.ConnectReachesReadyWithWidth8
  intro s id poll csw t u rest hidle hsess hq hbound hsys hdbg hcsw hw
  simp only [List.append_assoc] at hw
  have hack : powerUpAcked poll = true := by rw [powerUpAcked, hsys, hdbg]; rfl
  have hsize : sizeAccepted .w8 csw = true := beq_iff_eq.2 hcsw
  refine ⟨_, exec_connect hidle hsess, ?_⟩
  refine steps_trans (k := 40) (steps_preamble rfl hq) ?_
  refine steps_trans (k := 24) (steps_setup rfl hq hw) ?_
  refine steps_trans (k := 20) (steps_write rfl rfl hq rfl) ?_
  refine steps_trans (k := 16) (steps_u2 rfl hq hbound rfl) ?_
  refine steps_trans (k := 12) (steps_poll_acked rfl hq nofun hack rfl) ?_
  refine steps_trans (k := 8) (steps_selectTx rfl hq rfl) ?_
  refine steps_trans (k := 4) (steps_n1 rfl hq rfl rfl) ?_
  exact steps_n2_accepted rfl hq hsize rfl

end Sys2Proof.Machine
end

section
/-! PROOFS. AP registers through the port, an ABORT write that fails, the poll read that ends powerUp, and the
fallback of width negotiation (spec/41_port_register_space.md R144 to R153; spec/42_mem_ap.md R180 to R183, R186). -/

namespace Sys2Proof.Machine
open Sys2Proof.Safety

section PortAndNegotiation

variable {s : State} {p : Pos} {t : Tx} {b : Bank} {ap reg : BitVec 8} {v : Word} {trn trn' : Bool} {rest : List Bool}

/-! ## `selectBank` before an AP access (R145, R146) -/

/-- Under its bank the AP transfer itself is called (R145). -/
theorem startAp_hit (hsel : s.sel = some b) : startAp p b t s = goto p (.issue t) s := if_pos hsel

/-- Under another bank the SELECT write is called with the cache empty and, answered OK, fills it and calls the AP
transfer (R146). -/
theorem steps_startAp_miss (hq : s.resetIn = []) (hmiss : s.sel ≠ some b)
    (hw : s.wireIn = ackBits trn s.par.ackOk ++ rest) :
    steps 4 (startAp p b t s) = .next { s with
      seq := .busy p (.issue ⟨true, t.rnw, t.a32, t.wdata, .access⟩)
      sel := some b
      wireIn := rest
      trace := s.trace ++ writeEvents s.par false 2#2 (selectWord b) trn } := by
  rw [startAp, if_neg hmiss]
  exact steps_selectTx rfl hq hw

/-- The AP transfer of WRITEPORT answered OK at once completes the command (R153). -/
theorem steps_apWrite (h : s.seq = .busy (.port (.apWrite ap reg v)) (.issue (accessTx (.apWrite ap reg v))))
    (hq : s.resetIn = []) (hw : s.wireIn = ackBits trn s.par.ackOk ++ rest) :
    steps 4 s = .next (answered 0x00#8 0#32 { s with
      wireIn := rest, trace := s.trace ++ writeEvents s.par true (a32Of reg) v trn }) :=
  steps_write h rfl hq hw

/-! ## The steps of negotiateWidth after a refused 8-bit code (R180, R182, R183) -/

/-- A read-back is accepted for a width exactly when its bits 2:0 are the width's size code (R182). -/
theorem sizeAccepted_iff {w : Width} : sizeAccepted w v = true ↔ v.extractLsb' 0 3 = sizeCode w := beq_iff_eq

/-- N2 reads back another size code than the 8-bit one, and the CSW write of the 16-bit probe is next. -/
theorem steps_n2_refused (h : s.seq = .busy .n2 (.issue (accessTx (.apRead s.par.memapIndex 0x00#8))))
    (hq : s.resetIn = []) (hsel : s.sel = some ⟨s.par.memapIndex, 0#4⟩) (hsize : v.extractLsb' 0 3 ≠ 0b000#3)
    (hw : s.wireIn = readAnswer s.par trn v trn' ++ rest) :
    steps 4 s = .next { s with
      seq := .busy .n3 (.issue (accessTx (.apWrite s.par.memapIndex 0x00#8 (cswValue s.par .w16))))
      wireIn := rest
      trace := s.trace ++ readEvents s.par true 0#2 trn v trn' } :=
  (steps_read h rfl hq hw).trans
    (congrArg Host.Outcome.next ((if_neg (mt sizeAccepted_iff.1 hsize)).trans (startAp_hit hsel)))

/-- N3 writes CSW under its bank, and the CSW read of N4 is next. -/
theorem steps_n3 (h : s.seq = .busy .n3 (.issue (accessTx (.apWrite s.par.memapIndex 0x00#8 (cswValue s.par .w16)))))
    (hq : s.resetIn = []) (hsel : s.sel = some ⟨s.par.memapIndex, 0#4⟩)
    (hw : s.wireIn = ackBits trn s.par.ackOk ++ rest) :
    steps 4 s = .next { s with
      seq := .busy .n4 (.issue (accessTx (.apRead s.par.memapIndex 0x00#8)))
      wireIn := rest
      trace := s.trace ++ writeEvents s.par true 0#2 (cswValue s.par .w16) trn } :=
  (steps_write h rfl hq hw).trans (congrArg Host.Outcome.next (startAp_hit hsel))

/-- Whatever N4 reads back CONNECT completes in Ready: with width 16 if it is the 16-bit size code, else with 32. -/
theorem steps_n4 (h : s.seq = .busy .n4 (.issue (accessTx (.apRead s.par.memapIndex 0x00#8))))
    (hq : s.resetIn = []) (hw : s.wireIn = readAnswer s.par trn v trn' ++ rest) :
    steps 4 s = .next (answered 0x00#8 0#32 { s with
      sess := .ready
      width := some (if v.extractLsb' 0 3 = 0b001#3 then .w16 else .w32)
      wireIn := rest
      trace := s.trace ++ readEvents s.par true 0#2 trn v trn' }) := by
  refine Eq.trans (steps_read h rfl hq hw) (congrArg Host.Outcome.next ?_)
  by_cases hsize : v.extractLsb' 0 3 = 0b001#3
  case pos =>
    rw [if_pos hsize]
    exact if_pos (sizeAccepted_iff.2 hsize)
  case neg =>
    rw [if_neg hsize]
    exact if_neg (mt sizeAccepted_iff.1 hsize)

end PortAndNegotiation

/-! ## The statements -/

/-- Settles O31: under its bank the read is called at once, under another after the SELECT write. -/
theorem readportApSelectsThenReads : Obligations.ReadportApSelectsThenReads := by
  unfold Obligations.ReadportApSelectsThenReads
  intro s ap reg v t0 t u rest hidle hready hq hwf
  have hexec := exec_readportAp (ap := ap) ⟨hidle, hready, hq⟩ (of_decide_eq_true hwf)
  refine ⟨fun hsel hw => ⟨_, hexec, ?hit⟩, fun hmiss hw => ⟨_, hexec, ?miss⟩⟩
  case hit =>
    rw [startAp_hit (b := bankOf ap reg) hsel]
    exact steps_apRead rfl hq hw
  case miss =>
    rw [List.append_assoc] at hw
    exact steps_trans (k := 4) (steps_startAp_miss hq hmiss hw) (steps_apRead rfl hq rfl)

/-- Settles O32: under its bank the write is called at once, under another after the SELECT write. -/
theorem writeportApSelectsThenWrites : Obligations.WriteportApSelectsThenWrites := by
  unfold Obligations.WriteportApSelectsThenWrites
  intro s ap reg v t0 t rest hidle hready hq hwf
  have hexec : exec (.writeportAp ap reg v) s =
      .next (startAp (.port (.apWrite ap reg v)) (bankOf ap reg) (accessTx (.apWrite ap reg v)) s) :=
    exec_writeportAp ⟨hidle, hready, hq⟩ (of_decide_eq_true hwf)
  refine ⟨fun hsel hw => ⟨_, hexec, ?hit⟩, fun hmiss hw => ⟨_, hexec, ?miss⟩⟩
  case hit =>
    rw [startAp_hit (b := bankOf ap reg) hsel]
    exact steps_apWrite rfl hq hw
  case miss =>
    rw [List.append_assoc] at hw
    exact steps_trans (k := 4) (steps_startAp_miss hq hmiss hw) (steps_apWrite rfl hq rfl)

/-- Settles O47: the ABORT write's own error is discarded, and the FaultError it followed is raised. -/
theorem failedAbortWriteIsNotRepeated : Obligations.FailedAbortWriteIsNotRepeated := by
  unfold Obligations.FailedAbortWriteIsNotRepeated
  intro s p n b c e rest h hq ho hb he hw
  rw [List.append_assoc] at hw
  exact step_abortWrite_fails h hq he ho hb hw

/-- Settles O51: the poll reads both ack bits, and the empty cache makes N1 begin with its SELECT write. -/
theorem pollEndsOnBothAckBits : Obligations.PollEndsOnBothAckBits := by
  unfold Obligations.PollEndsOnBothAckBits
  intro s n v b b' rest h hq hsel hsys hdbg hw
  have hmiss : s.sel ≠ some ⟨s.par.memapIndex, 0#4⟩ := by rw [hsel]; nofun
  have hack : powerUpAcked v = true := by rw [powerUpAcked, hsys, hdbg]; rfl
  refine Eq.trans (steps_poll_acked h hq hmiss hack hw) ?_
  rw [← hsel]
  rfl

/-- Settles O21: the SELECT write, then the two probes, each a CSW write and its read-back. -/
theorem negotiationFallsBackTo16And32 : Obligations.NegotiationFallsBackTo16And32 := by
  unfold Obligations.NegotiationFallsBackTo16And32
  intro s c8 c16 t u rest h hq hc8 hw
  simp only [List.append_assoc] at hw
  refine steps_trans (k := 16) (steps_selectTx h hq hw) ?_
  refine steps_trans (k := 12) (steps_n1 rfl hq rfl rfl) ?_
  refine steps_trans (k := 8) (steps_n2_refused rfl hq rfl hc8 rfl) ?_
  refine steps_trans (k := 4) (steps_n3 rfl hq rfl rfl) ?_
  exact steps_n4 rfl hq rfl

end Sys2Proof.Machine
end

section
/-! PROOFS. The memory commands answered OK throughout, and the poll reads that leave powerUp polling or end it with
PowerUpTimeout (spec/42_mem_ap.md R172 to R179, R185 to R187; spec/70_reset_and_hazards.md R284). -/

namespace Sys2Proof.Machine
open Sys2Proof.Safety

/-! ## The steps of a memory command (R174 to R177) -/

/-- The access of M4: WRITEMEM writes DRW with the datum in its lane, READMEM reads DRW. -/
def drwAccess (par : Params) (op : MemOp) : Access :=
  if op.write then .apWrite par.memapIndex 0x0C#8 (drwWord op.width op.addr op.value)
  else .apRead par.memapIndex 0x0C#8

/-- `drwAccess` is what the step table has for M4. -/
theorem plan_m4 (par : Params) (op : MemOp) : plan par (.m4 op) = .access (drwAccess par op) := by
  rw [drwAccess, plan]
  split <;> rfl

section MemoryCommand

variable {s : State} {op : MemOp} {w : Width} {addr value drw : Word} {trn₀ trn trn' : Bool} {rest : List Bool}

/-- Under the MEM-AP's bank M4 begins with its access. -/
theorem enter_m4 (hsel : s.sel = some ⟨s.par.memapIndex, 0#4⟩) :
    enter (.m4 op) s = goto (.m4 op) (.issue (accessTx (drwAccess s.par op))) s := by
  rw [enter, plan_m4, drwAccess]
  cases op.write <;> exact startAp_hit hsel

/-- M2 writes CSW under its bank, and the TAR write of M3 is next (R175). -/
theorem steps_m2 (h : s.seq = .busy (.m2 op) (.issue (accessTx (.apWrite s.par.memapIndex 0x00#8
      (cswValue s.par op.width))))) (hq : s.resetIn = []) (hsel : s.sel = some ⟨s.par.memapIndex, 0#4⟩)
    (hw : s.wireIn = ackBits trn s.par.ackOk ++ rest) :
    steps 4 s = .next { s with
      seq := .busy (.m3 op) (.issue (accessTx (.apWrite s.par.memapIndex 0x04#8 op.addr)))
      wireIn := rest
      trace := s.trace ++ writeEvents s.par true 0#2 (cswValue s.par op.width) trn } :=
  (steps_write h rfl hq hw).trans (congrArg Host.Outcome.next (startAp_hit hsel))

/-- M3 writes the address to TAR under its bank, and the access of M4 is next (R175). -/
theorem steps_m3 (h : s.seq = .busy (.m3 op) (.issue (accessTx (.apWrite s.par.memapIndex 0x04#8 op.addr))))
    (hq : s.resetIn = []) (hsel : s.sel = some ⟨s.par.memapIndex, 0#4⟩)
    (hw : s.wireIn = ackBits trn s.par.ackOk ++ rest) :
    steps 4 s = .next { s with
      seq := .busy (.m4 op) (.issue (accessTx (drwAccess s.par op)))
      wireIn := rest
      trace := s.trace ++ writeEvents s.par true 1#2 op.addr trn } :=
  (steps_write h rfl hq hw).trans (congrArg Host.Outcome.next (enter_m4 hsel))

/-- On a hit a memory command reaches M4 after its CSW and TAR writes (R175, R177). -/
theorem steps_enter_m2_hit (hq : s.resetIn = []) (hsel : s.sel = some ⟨s.par.memapIndex, 0#4⟩)
    (hw : s.wireIn = ackBits trn s.par.ackOk ++ (ackBits trn' s.par.ackOk ++ rest)) :
    steps 8 (enter (.m2 op) s) = .next { s with
      seq := .busy (.m4 op) (.issue (accessTx (drwAccess s.par op)))
      wireIn := rest
      trace := s.trace ++ writeEvents s.par true 0#2 (cswValue s.par op.width) trn ++
        writeEvents s.par true 1#2 op.addr trn' } := by
  have hcsw : enter (.m2 op) s = goto (.m2 op) _ s := startAp_hit hsel
  rw [hcsw]
  exact steps_trans (k := 4) (steps_m2 rfl hq hsel hw) (steps_m3 rfl hq hsel rfl)

/-- On a miss the SELECT write comes first and fills the cache (R146, R175, R177). -/
theorem steps_enter_m2_miss (hq : s.resetIn = []) (hmiss : s.sel ≠ some ⟨s.par.memapIndex, 0#4⟩)
    (hw : s.wireIn = ackBits trn₀ s.par.ackOk ++ (ackBits trn s.par.ackOk ++ (ackBits trn' s.par.ackOk ++ rest))) :
    steps 12 (enter (.m2 op) s) = .next { s with
      seq := .busy (.m4 op) (.issue (accessTx (drwAccess s.par op)))
      sel := some ⟨s.par.memapIndex, 0#4⟩
      wireIn := rest
      trace := s.trace ++ writeEvents s.par false 2#2 (selectWord ⟨s.par.memapIndex, 0#4⟩) trn₀ ++
        writeEvents s.par true 0#2 (cswValue s.par op.width) trn ++ writeEvents s.par true 1#2 op.addr trn' } := by
  refine steps_trans (k := 8) (steps_startAp_miss hq hmiss hw) ?_
  exact steps_trans (k := 4) (steps_m2 rfl hq rfl rfl) (steps_m3 rfl hq rfl rfl)

/-- M4 of WRITEMEM writes DRW, and the command completes with Ok (R174). -/
theorem steps_m4_write (h : s.seq = .busy (.m4 ⟨true, w, addr, value⟩)
      (.issue (accessTx (drwAccess s.par ⟨true, w, addr, value⟩)))) (hq : s.resetIn = [])
    (hw : s.wireIn = ackBits trn s.par.ackOk ++ rest) :
    steps 4 s = .next (answered 0x00#8 0#32 { s with
      wireIn := rest, trace := s.trace ++ writeEvents s.par true 3#2 (drwWord w addr value) trn }) :=
  steps_write h rfl hq hw

/-- M4 of READMEM reads DRW, and the command completes with the lane of the word read (R176). -/
theorem steps_m4_read (h : s.seq = .busy (.m4 ⟨false, w, addr, value⟩)
      (.issue (accessTx (drwAccess s.par ⟨false, w, addr, value⟩)))) (hq : s.resetIn = [])
    (hw : s.wireIn = readAnswer s.par trn drw trn' ++ rest) :
    steps 4 s = .next (answered 0x00#8 (laneOf w addr drw) { s with
      wireIn := rest, trace := s.trace ++ readEvents s.par true 3#2 trn drw trn' }) :=
  steps_read h rfl hq hw

end MemoryCommand

/-! ## Poll reads without both ack bits (R185 to R187) -/

section Poll

variable {s : State} {n : Nat} {v : Word} {trn trn' : Bool} {rest : List Bool}

/-- The poll ends exactly on both ack bits (R186). -/
theorem powerUpAcked_iff : powerUpAcked v = true ↔ v.getLsbD 31 = true ∧ v.getLsbD 29 = true := Bool.and_eq_true_iff

/-- A poll read without both ack bits: the next begins, unless the bound is reached. -/
theorem steps_poll_unacked (h : s.seq = .busy (.u3 n) (.issue (accessTx (.dpRead 0x04#8)))) (hq : s.resetIn = [])
    (hack : ¬ (v.getLsbD 31 = true ∧ v.getLsbD 29 = true)) (hw : s.wireIn = readAnswer s.par trn v trn' ++ rest) :
    steps 4 s = .next (startPoll (n + 1) { s with
      seq := .busy (.u3 n) (.data (accessTx (.dpRead 0x04#8)))
      wireIn := rest
      trace := s.trace ++ readEvents s.par false 1#2 trn v trn' }) :=
  (steps_read h rfl hq hw).trans (congrArg Host.Outcome.next (if_neg (mt powerUpAcked_iff.1 hack)))

/-- Below the bound the next poll read is called. -/
theorem steps_poll_again (h : s.seq = .busy (.u3 n) (.issue (accessTx (.dpRead 0x04#8)))) (hq : s.resetIn = [])
    (hack : ¬ (v.getLsbD 31 = true ∧ v.getLsbD 29 = true)) (hbound : s.par.powerupPollBound ≠ some (n + 1))
    (hw : s.wireIn = readAnswer s.par trn v trn' ++ rest) :
    steps 4 s = .next { s with
      seq := .busy (.u3 (n + 1)) (.issue (accessTx (.dpRead 0x04#8)))
      wireIn := rest
      trace := s.trace ++ readEvents s.par false 1#2 trn v trn' } :=
  (steps_poll_unacked h hq hack hw).trans (congrArg Host.Outcome.next (startPoll_below hbound))

/-- At its bound the poll raises PowerUpTimeout (R187). -/
theorem startPoll_at (hbound : s.par.powerupPollBound = some n) :
    startPoll n s = erred (.u3 n) .powerUpTimeout s := (if_pos hbound).trans (raise_eq ..)

/-- At the bound the disconnect sequence answers ConnectError(PowerUpTimeout) (R187, R204). -/
theorem steps_poll_timeout (h : s.seq = .busy (.u3 n) (.issue (accessTx (.dpRead 0x04#8)))) (hq : s.resetIn = [])
    (hack : ¬ (v.getLsbD 31 = true ∧ v.getLsbD 29 = true)) (hbound : s.par.powerupPollBound = some (n + 1))
    (hw : s.wireIn = readAnswer s.par trn v trn' ++ rest) :
    steps 5 s = .next (answered 0x65#8 0#32 (disconnected { s with
      wireIn := rest
      trace := s.trace ++ readEvents s.par false 1#2 trn v trn' })) := by
  have hraised := (steps_poll_unacked h hq hack hw).trans (congrArg Host.Outcome.next (startPoll_at hbound))
  exact steps_trans (k := 1) hraised (steps_one (step_erred_inConnect rfl hq))

/-- With no bound each poll read without both ack bits is followed by the next (R186, R187). -/
theorem steps_polls (l : List (Bool × Word × Bool)) (h : s.seq = .busy (.u3 n) (.issue (accessTx (.dpRead 0x04#8))))
    (hq : s.resetIn = []) (hbound : s.par.powerupPollBound = none)
    (hack : ∀ q ∈ l, ¬ (q.2.1.getLsbD 31 = true ∧ q.2.1.getLsbD 29 = true))
    (hw : s.wireIn = pollAnswers s.par l ++ rest) :
    steps (4 * l.length) s = .next { s with
      seq := .busy (.u3 (n + l.length)) (.issue (accessTx (.dpRead 0x04#8)))
      wireIn := rest
      trace := s.trace ++ pollEvents s.par l } := by
  induction l generalizing s n with
  | nil =>
    cases s
    simp_all [pollAnswers, pollEvents]
  | cons q l ih =>
    obtain ⟨hfirst, hlater⟩ := List.forall_mem_cons.1 hack
    have hnext : s.par.powerupPollBound ≠ some (n + 1) := by rw [hbound]; nofun
    have hw' : s.wireIn = readAnswer s.par q.1 q.2.1 q.2.2 ++ (pollAnswers s.par l ++ rest) := by
      simpa [pollAnswers] using hw
    refine steps_trans (k := 4 * l.length) (steps_poll_again h hq hfirst hnext hw') ?_ (by simp; omega)
    refine Eq.trans (ih rfl hq hbound hlater rfl) ?_
    simp [pollEvents, Nat.add_assoc, Nat.add_comm 1]

end Poll

/-! ## The statements -/

/-- Settles O27: with or without the SELECT write the command reaches M4, which writes DRW. -/
theorem writememWritesCswTarDrw : Obligations.WritememWritesCswTarDrw := by
  unfold Obligations.WritememWritesCswTarDrw
  intro s code addr value t rest hidle hready hq
  have hexec := exec_writemem (code := code) (addr := addr) (v := value) ⟨hidle, hready, hq⟩
  refine ⟨fun hsel hw => ⟨_, hexec, ?hit⟩, fun hmiss hw => ⟨_, hexec, ?miss⟩⟩
  case hit =>
    simp only [List.append_assoc] at hw
    exact steps_trans (k := 4) (steps_enter_m2_hit hq hsel hw) (steps_m4_write rfl hq rfl)
  case miss =>
    simp only [List.append_assoc] at hw
    exact steps_trans (k := 4) (steps_enter_m2_miss hq hmiss hw) (steps_m4_write rfl hq rfl)

/-- Settles O28: with or without the SELECT write the command reaches M4, which reads DRW. -/
theorem readmemReadsThroughDrw : Obligations.ReadmemReadsThroughDrw := by
  unfold Obligations.ReadmemReadsThroughDrw
  intro s code addr drw t u rest hidle hready hq
  have hexec := exec_readmem (code := code) (addr := addr) ⟨hidle, hready, hq⟩
  refine ⟨fun hsel hw => ⟨_, hexec, ?hit⟩, fun hmiss hw => ⟨_, hexec, ?miss⟩⟩
  case hit =>
    simp only [List.append_assoc] at hw
    exact steps_trans (k := 4) (steps_enter_m2_hit hq hsel hw) (steps_m4_read rfl hq rfl)
  case miss =>
    simp only [List.append_assoc] at hw
    exact steps_trans (k := 4) (steps_enter_m2_miss hq hmiss hw) (steps_m4_read rfl hq rfl)

/-- Settles O50: the bound decides between the next poll read and PowerUpTimeout. -/
theorem pollRepeatsUntilItsBound : Obligations.PollRepeatsUntilItsBound := by
  unfold Obligations.PollRepeatsUntilItsBound
  intro s n v b b' rest h hq hack hw
  exact ⟨fun hbound => steps_poll_again h hq hack hbound hw, fun hbound => steps_poll_timeout h hq hack hbound hw⟩

/-- Settles O52: by induction on the poll answers, none of which ends the poll. -/
theorem unboundedPollNeverEnds : Obligations.UnboundedPollNeverEnds := by
  unfold Obligations.UnboundedPollNeverEnds
  intro s n l rest h hq hbound hack hw
  exact steps_polls l h hq hbound hack hw

end Sys2Proof.Machine
end

section
/-! PROOFS. The debug session (spec/43_debug_session.md R200 to R210): the admission of commands, CONNECT's step C0, the
disconnect sequence, and the moves of the session state. -/

namespace Sys2Proof.Machine
open Sys2Proof.Safety

/-! ## Admission (R202, R239) -/

section Admission

variable {s : State}

/-- The idle block does what accepting the command does. -/
theorem whenIdle_of_idle (h : s.seq = .idle) (t : State) : whenIdle t s = t := if_pos h

/-- Outside Disconnected CONNECT is answered AlreadyConnected. -/
theorem exec_connect_refused (hidle : s.seq = .idle) (hsess : s.sess ≠ .disconnected) :
    exec .connect s = .next (answered 0x08#8 0#32 s) := by
  simp only [exec, execConnect, whenIdle_of_idle hidle, if_neg hsess]
  rfl

/-- Outside Ready a memory command is answered NotReady. -/
theorem startMem_refused (hsess : s.sess ≠ .ready) (write : Bool) (code : WidthCode) (addr value : Word) :
    startMem write code addr value s = answered 0x07#8 0#32 s := by
  rw [startMem, if_neg hsess]
  rfl

/-- Outside Ready a legal port command is answered NotReady. -/
theorem startPort_refused {legal : Prop} [Decidable legal] (hlegal : legal) (hsess : s.sess ≠ .ready) (a : Access) :
    startPort legal a s = answered 0x07#8 0#32 s := by
  rw [startPort, if_neg (not_not_intro hlegal), if_neg hsess]
  rfl

end Admission

/-- Settles O19: each command fails its admission check, and a well-formed port command passes the legality check before
it. -/
theorem refusedCommandsChangeOnlyLatches : Obligations.RefusedCommandsChangeOnlyLatches := by
  unfold Obligations.RefusedCommandsChangeOnlyLatches
  intro s hidle
  refine ⟨exec_connect_refused hidle, fun hsess => ?_⟩
  have hrefused {t : State} (ht : t = answered 0x07#8 0#32 s) :
      (.next (whenIdle t s) : Host.Outcome State Fault Refusal) = .next (answered 0x07#8 0#32 s) :=
    congrArg Host.Outcome.next ((whenIdle_of_idle hidle t).trans ht)
  refine ⟨fun w a => ?readmem, fun w a v => ?writemem, fun r hwf => ?readportDp, fun k r hwf => ?readportAp,
    fun r v hwf => ?writeportDp, fun k r v hwf => ?writeportAp⟩
  case readmem | writemem => exact hrefused (startMem_refused hsess ..)
  case readportDp | readportAp | writeportDp | writeportAp =>
    exact hrefused (startPort_refused (of_decide_eq_true hwf) hsess _)

/-! ## CONNECT, DISCONNECT and RESET (R203, R206 to R210) -/

section Sessions

variable {s : State}

/-- CONNECT's step C0 opens the link, and the line reset of C1 is next (R203). -/
theorem startConnect_eq (s : State) :
    startConnect s = { s with
      sess := .connecting
      linkOpen := true
      trace := s.trace ++ [Event.linkConnect]
      seq := .busy .c1 (.line .lineReset) } := rfl

/-- In Disconnected RESET is CONNECT (R210). -/
theorem exec_reset_disconnected (hidle : s.seq = .idle) (hsess : s.sess = .disconnected) :
    exec .reset s = exec .connect s := by
  rw [exec_connect hidle hsess]
  simp only [exec, execReset, whenIdle_of_idle hidle, if_pos hsess]

/-- In an open session RESET begins the disconnect sequence (R210). -/
theorem exec_reset_open (hidle : s.seq = .idle) (hsess : s.sess ≠ .disconnected) :
    exec .reset s = .next (enter (.disc .reset) s) := by
  simp only [exec, execReset, whenIdle_of_idle hidle, if_neg hsess]

/-- In an open session DISCONNECT begins the disconnect sequence (R208). -/
theorem exec_disconnect_open (hidle : s.seq = .idle) (hsess : s.sess ≠ .disconnected) :
    exec .disconnect s = .next (enter (.disc .command) s) := by
  simp only [exec, execDisconnect, whenIdle_of_idle hidle, if_neg hsess]

/-- In Disconnected DISCONNECT is answered at once (R209). -/
theorem exec_disconnect_disconnected (hidle : s.seq = .idle) (hsess : s.sess = .disconnected) :
    exec .disconnect s = .next (answered 0x00#8 0#32 s) := by
  simp only [exec, execDisconnect, whenIdle_of_idle hidle, if_pos hsess]
  rfl

/-- The one step of the disconnect sequence drives its line reset (R206). -/
theorem step_enter_disc (why : DisconnectReason) (hq : s.resetIn = []) :
    step (enter (.disc why) s) = .next (stepDone (.disc why) 0#32 { s with
      seq := .busy (.disc why) (.line .lineReset), trace := s.trace ++ drives (ones s.par.nLineReset) }) :=
  step_line (s := enter (.disc why) s) rfl hq

end Sessions

/-- Settles O22: the end of DISCONNECT's line reset closes the session and answers Ok. -/
theorem disconnectClosesTheSession : Obligations.DisconnectClosesTheSession := by
  unfold Obligations.DisconnectClosesTheSession
  intro s hidle hq
  exact ⟨fun hsess => ⟨_, exec_disconnect_open hidle hsess, step_enter_disc .command hq⟩,
    exec_disconnect_disconnected hidle⟩

/-- Settles O23: the end of RESET's line reset closes the session and goes on as CONNECT does when the idle block accepts
it. -/
theorem resetIsDisconnectThenConnect : Obligations.ResetIsDisconnectThenConnect := by
  unfold Obligations.ResetIsDisconnectThenConnect
  intro s hidle hq
  refine ⟨fun hsess => ⟨_, exec_reset_open hidle hsess, ?_⟩, exec_reset_disconnected hidle⟩
  have hconnect : exec .connect (disconnected s) = .next (startConnect (disconnected s)) := exec_connect hidle rfl
  rw [hconnect]
  exact step_enter_disc .reset hq

/-- Settles O24: CONNECT's acceptance is its step C0. -/
theorem connectOpensTheLink : Obligations.ConnectOpensTheLink := by
  unfold Obligations.ConnectOpensTheLink
  intro s hidle hsess
  exact ⟨by rw [exec_connect hidle hsess, startConnect_eq], exec_reset_disconnected hidle hsess⟩

/-! ## The moves of the session state (R200, R201) -/

/-- How an operation at step `p` may move the session from `x` to `y`: along CONNECT, or at the end of the disconnect
sequence, where a RESET goes on to Connecting (R201, R203, R206, R210). -/
inductive Moves (p : Pos) (x y : Session) : Prop
  | stays (h : y = x)
  | synchronizes (hx : x = .connecting) (hy : y = .synced)
  | powersUp (hx : x = .synced) (hy : y = .poweredUp)
  | becomesReady (hx : x = .poweredUp) (hy : y = .ready)
  | closes (why : DisconnectReason) (hp : p = .disc why) (hy : y = .disconnected)
  | reopens (hp : p = .disc .reset) (hx : x = .ready) (hy : y = .connecting)

theorem startConnect_sess (s : State) : (startConnect s).sess = .connecting := rfl

theorem raise_sess (p : Pos) (e : OpError) (s : State) : (raise p e s).sess = s.sess := by
  unfold raise
  split_ifs
  · exact enter_sess _ s
  · rfl

theorem startPoll_sess (n : Nat) (s : State) : (startPoll n s).sess = s.sess := by
  unfold startPoll
  split_ifs
  · exact raise_sess _ _ s
  · exact enter_sess _ s

theorem endConnect_sess (w : Width) (s : State) : (endConnect w s).sess = .ready := rfl

/-- Of the steps, C3, the last poll, the last read of the CSW and the disconnect sequence move the session at their end. -/
theorem moves_stepDone {s : State} {p : Pos} (v : Word) (hs : stepSession p s.sess = true) :
    Moves p s.sess (stepDone p v s).sess := by
  unfold stepDone
  cases p with
  | c1 | c2Switch | c2Reset | c2Idle | c4 | c5 | c6 | u1 | n1 | n3 | m2 | m3 => exact .stays (enter_sess _ s)
  | c3 => exact .synchronizes (eq_of_beq hs) (enter_sess _ _)
  | u2 => exact .stays (startPoll_sess 0 s)
  | u3 n =>
    dsimp only
    split_ifs
    · exact .powersUp (eq_of_beq hs) (enter_sess _ _)
    · exact .stays (startPoll_sess (n + 1) s)
  | n2 =>
    dsimp only
    split_ifs
    · exact .becomesReady (eq_of_beq hs) (endConnect_sess _ s)
    · exact .stays (enter_sess _ s)
  | n4 =>
    dsimp only
    split_ifs <;> exact .becomesReady (eq_of_beq hs) (endConnect_sess _ s)
  | m4 op => exact .stays rfl
  | port a => cases a <;> exact .stays rfl
  | disc why =>
    cases why with
    | reset => exact .reopens rfl (eq_of_beq hs) (startConnect_sess _)
    | command | connectFailed => exact .closes _ rfl rfl

/-- A transaction that returns moves the session only where it ends its step. -/
theorem moves_txOk {s : State} {p : Pos} (t : Tx) (v : Word) (hs : stepSession p s.sess = true) :
    Moves p s.sess (txOk p t v s).sess := by
  unfold txOk
  split
  · exact moves_stepDone v hs
  · exact .stays rfl
  · exact .stays (raise_sess p .fault s)

/-- A transaction that raises leaves the session, which a failed CONNECT loses only at the end of its disconnect sequence
(R204). -/
theorem txError_sess (p : Pos) (t : Tx) (e : OpError) (s : State) : (txError p t e s).sess = s.sess := by
  unfold txError
  split
  · exact raise_sess p .fault s
  all_goals
    split
    · rfl
    all_goals exact raise_sess p _ s

theorem WireStep.moves {s t : State} {p : Pos} {ph : Phase} (h : WireStep s p ph t) (hs : stepSession p s.sess = true) :
    Moves p s.sess t.sess := by
  cases h with
  | line => exact moves_stepDone _ hs
  | issue | request | ackOk | retry => exact .stays rfl
  | ackError | badParity => exact .stays (txError_sess _ _ _ s)
  | returns => exact moves_txOk _ _ hs

/-- Accepting a command leaves the session, or it is CONNECT's step C0 in Disconnected (R202, R203). -/
theorem Accepts.sess {s t : State} (h : Accepts s t) :
    t.sess = s.sess ∨ (s.sess = .disconnected ∧ t.sess = .connecting) := by
  cases h with
  | connects hd => exact .inr ⟨hd, startConnect_sess s⟩
  | enters p => exact .inl (enter_sess p s)
  | answers | invalidates => exact .inl rfl

theorem OnWire.sess {s u : State} (h : OnWire s u) : u.sess = s.sess := by
  obtain ⟨_, _, _, rfl⟩ := h
  rfl

/-- One operation of a run: the session stays, CONNECT begins, or the session moves as the step of a busy block lets it. -/
theorem operate_sess {s t : State} (h : RunInvariant s) (hop : operate s = .next t) :
    t.sess = s.sess ∨ (s.sess = .disconnected ∧ t.sess = .connecting) ∨
      ∃ p ph, s.seq = .busy p ph ∧ Moves p s.sess t.sess := by
  obtain ⟨-, -, rfl⟩ | ⟨c, rest, -, -, ha⟩ | ⟨p, ph, u, hb, hu, hw⟩ := operate_cases hop
  · exact .inl rfl
  · exact ha.sess.imp_right .inl
  · have hs : stepSession p s.sess = true := by simpa [seqSession, hb] using h.position
    have hmoves := hw.moves (hu.sess.symm ▸ hs)
    exact .inr (.inr ⟨p, ph, hb, hu.sess ▸ hmoves⟩)

/-- In a run the disconnect sequence stands at its line reset, in a session that is not Disconnected (R200, R206). -/
theorem lineReset_of_disc {s : State} {why : DisconnectReason} {ph : Phase} (h : RunInvariant s)
    (hb : s.seq = .busy (.disc why) ph) : s.sess ≠ .disconnected ∧ ph = .line .lineReset := by
  have hs := h.position
  have hwire := h.wire
  simp only [seqSession, seqOk, hb] at hs hwire
  constructor
  case left =>
    intro hd
    rw [hd] at hs
    cases why <;> cases hs
  case right =>
    obtain ⟨hph, -⟩ := hwire
    cases ph with
    | line l =>
      cases hph
      rfl
    | issue t | data t =>
      obtain ⟨a, hp, -⟩ := hph
      cases hp
    | q1 t n | q2 t n =>
      obtain ⟨⟨a, hp, -⟩, -⟩ := hph
      cases hp

/-- Settles O53: without a block reset a step is one operation, and a step of the disconnect sequence is its line reset. -/
theorem sessionMovesOnlyAsListed : Obligations.SessionMovesOnlyAsListed := by
  unfold Obligations.SessionMovesOnlyAsListed
  intro s t h hlow hstep
  have hop := operate_sess (runInvariant_withResetIn h _) ((step_of_low hlow).symm.trans hstep)
  obtain hstays | hconnects | ⟨p, ph, hb, hmoves⟩ := hop
  · exact .inl hstays
  · exact .inr (.inl hconnects)
  cases hmoves with
  | stays hy => exact .inl hy
  | synchronizes hx hy => exact .inr (.inr (.inl ⟨hx, hy⟩))
  | powersUp hx hy => exact .inr (.inr (.inr (.inl ⟨hx, hy⟩)))
  | becomesReady hx hy => exact .inr (.inr (.inr (.inr (.inl ⟨hx, hy⟩))))
  | closes why hp hy =>
    subst hp
    obtain ⟨hopen, rfl⟩ := lineReset_of_disc h hb
    exact .inr (.inr (.inr (.inr (.inr (.inl ⟨hopen, hy, why, hb⟩)))))
  | reopens hp hx hy =>
    subst hp
    obtain ⟨-, rfl⟩ := lineReset_of_disc h hb
    exact .inr (.inr (.inr (.inr (.inr (.inr ⟨hx, hy, hb⟩)))))

end Sys2Proof.Machine
end
